-- ==== Sys2Proof/Word.lean ====
section
/-! DEFINITION. The words of camlib-FCE (00_scope.md R14): unsigned, bit 0 least significant. -/

namespace Sys2Proof

/-- A `u8` (R14). -/
abbrev Byte := BitVec 8

/-- An operation word, format `OP24` (30_encoding.md R90). -/
abbrev OpWord := BitVec 24

end Sys2Proof
end

