-- ==== Sys2Proof/Config.lean ====
section
/-! DEFINITION. What is fixed for one block (R11, R12), the types of its inputs (R16, R21), and the free values: opaque
constants without a body, so that no proof can see one. -/

namespace Sys2Proof

/-- WIDTH, pixels per line (R11). -/
abbrev Config.width : Nat := 160

/-- HEIGHT, lines per frame (R11). -/
abbrev Config.height : Nat := 120

/-- A Register Table entry, format `REGENT` (R62, R98). -/
structure RegEntry where
  address : Byte
  value : Byte
  deriving DecidableEq, Repr, Inhabited

/-- What every input pin shows at one tick (R16, R21). A level is `true` for 1. -/
structure Snapshot where
  vsync : Bool
  hsync : Bool
  pclk : Bool
  dport : BitVec 7
  d7 : Bool
  deriving DecidableEq, Repr, Inhabited

/-- A state of the platform's interrupt mask. The engine never inspects one (R26); `allMasked` is what `IrqMaskAll` leaves
(R200), `mask n` any other state of the platform's. -/
inductive IrqState where
  | allMasked
  | mask (n : Nat)
  deriving DecidableEq, Repr, Inhabited

/-- The open parameters of R12 but TICK_PERIOD, on which no rule depends (assumption 18). -/
structure Params where
  /-- REG_TABLE. -/
  table : List RegEntry
  /-- DEV_ADDR_BYTE. -/
  devAddr : Byte
  /-- SETTLE_TICKS. -/
  settleTicks : Nat
  /-- SCCB_ABORT_ON_NACK. -/
  abortOnNack : Bool
  deriving DecidableEq, Repr

/-- TABLE_LEN (R12). -/
abbrev Params.tableLen (p : Params) : Nat := p.table.length

/-- The parameters lie in their ranges (R12). -/
abbrev Params.wf (p : Params) : Prop := p.tableLen ≤ 65535 ∧ 1 ≤ p.settleTicks

/-- Open: the Register Table's entries (R8, R12, N1). -/
opaque Config.regTable : List RegEntry

/-- Open: the complete first byte of every write (R12, R94). -/
opaque Config.devAddrByte : Byte

/-- Open: SETTLE_TICKS less one (R12: at least 1). -/
opaque Config.settleTicksLessOne : Nat

/-- Open: SCCB_ABORT_ON_NACK (R12, C2). -/
opaque Config.sccbAbortOnNack : Bool

/-- The parameters of the block as built: any values in the ranges of R12 (assumptions 2, 23). -/
def Config.params : Params :=
  ⟨Config.regTable.take 65535, Config.devAddrByte, Config.settleTicksLessOne + 1, Config.sccbAbortOnNack⟩

/-- Free: the snapshot of tick `t` where the state lists none (R9, R16, assumption 1). -/
opaque Config.freeSnapshot : Nat → Snapshot

/-- Free: the sensor's contribution to SDA at the `n`-th acknowledge draw where the state lists none (R16, R32,
assumption 1). -/
opaque Config.freeSda : Nat → Bool

/-- Free: what a frame-buffer byte that nothing has written reads as; stable, one byte per address (R42, R234, U1,
assumption 5). -/
opaque Config.freeByte : Nat → Byte

/-- Free: the platform's interrupt mask at power-up (R41, R42, assumption 13). -/
opaque Config.irqMaskAtReset : IrqState

end Sys2Proof
end

