-- ==== Sys2Proof/Syntax.lean ====
section
/-! DEFINITION. The thirteen operations of 30_encoding.md R91, one constructor per row of opcode_table.json. -/

namespace Sys2Proof

/-- The pins a WAITW can wait on (R100). -/
inductive Pin where
  | vsync
  | hsync
  | pclk
  deriving DecidableEq, Repr

/-- The class of an operation word, bits 23:20 (R90). -/
inductive OpClass where
  | host
  | transport
  | capture
  deriving DecidableEq, Repr

/-- The operations of R91. A logic level is a Bool, `true` for 1 (assumption 3). The constructor of INITIALIZE is spelt
`initialise` because the other spelling is a Lean command's word. -/
inductive Instr where
  /-- INITIALIZE (R231). -/
  | initialise
  /-- CAPTURE (R232). -/
  | capture
  /-- GET_FRAME index (R234); the index is `{A, B}` (R92). -/
  | getFrame (index : BitVec 16)
  /-- CONFIGURE (R120). -/
  | configure
  /-- WRITE_REGISTER address, value (R141). -/
  | writeRegister (address value : Byte)
  /-- START (R151). -/
  | start
  /-- STOP (R153). -/
  | stop
  /-- TXBYTE b (R152). -/
  | txbyte (b : Byte)
  /-- WAITW pin, level (R182): wait while the pin reads equal to the level. -/
  | waitw (pin : Pin) (level : Bool)
  /-- SAMPLE (R187). -/
  | sample
  /-- IRQ_MASK (R200). -/
  | irqMask
  /-- IRQ_RESTORE (R201). -/
  | irqRestore
  /-- DELAY (R124). -/
  | delay
  deriving DecidableEq, Repr

end Sys2Proof
end

