-- ==== Sys2Proof/WellFormed.lean ====
section
/-! DEFINITION. The one operand check the types do not make: GET_FRAME's index lies in the frame buffer (R92, R101). -/

namespace Sys2Proof

/-- Length of the frame buffer in bytes, FB_LEN (R11). -/
abbrev fbLen : Nat := 38400

/-- Operands are legal (R92): a GET_FRAME index is at most 38399. -/
def Instr.wellFormed : Instr → Bool
  | .getFrame index => decide (index.toNat < fbLen)
  | .initialise | .capture | .configure | .writeRegister _ _ | .start | .stop | .txbyte _ | .waitw _ _ | .sample
  | .irqMask | .irqRestore | .delay => true

end Sys2Proof
end

