-- ==== Sys2Proof/Decode.lean ====
section
/-! DEFINITION. The decoder and the encoder of operation words (30_encoding.md R90 to R92, R100, R101, R107). -/

namespace Sys2Proof

/-- Bits 23:16, the opcode (R90). -/
def OpWord.opcode (w : OpWord) : Byte := w.extractLsb' 16 8

/-- Bits 15:8, operand A (R90). -/
def OpWord.fieldA (w : OpWord) : Byte := w.extractLsb' 8 8

/-- Bits 7:0, operand B (R90). -/
def OpWord.fieldB (w : OpWord) : Byte := w.extractLsb' 0 8

/-- The word with opcode `op` and operands `a` and `b`: `{op, a, b}` (R90). -/
def OpWord.pack (op a b : Byte) : OpWord := op ++ a ++ b

/-- A Register Table entry as one value, format `REGENT`: `address` in bits 15:8, `value` in bits 7:0 (R98). -/
def RegEntry.word (e : RegEntry) : BitVec 16 := e.address ++ e.value

/-- The entry that a `REGENT` value holds (R98). -/
def RegEntry.ofWord (w : BitVec 16) : RegEntry := ⟨w.extractLsb' 8 8, w.extractLsb' 0 8⟩

/-- Why a word is reserved (R101). -/
inductive DecodeError where
  /-- The opcode is in no row of R91. -/
  | reservedOpcode
  /-- An operand field that must be 0 is not. -/
  | operandNotZero
  /-- GET_FRAME with an index above 38399. -/
  | indexTooLarge
  /-- WAITW with a pin above 2. -/
  | noSuchPin
  /-- WAITW with a level above 1. -/
  | noSuchLevel
  deriving DecidableEq, Repr

/-- The pin a WAITW's operand A names (R100). -/
def Pin.ofCode (a : Byte) : Option Pin :=
  if a = 0 then some .vsync else if a = 1 then some .hsync else if a = 2 then some .pclk else none

/-- The pin identifiers of R100. -/
def Pin.code : Pin → Byte
  | .vsync => 0
  | .hsync => 1
  | .pclk => 2

/-- A level as operand B (R92). -/
def levelCode (level : Bool) : Byte := if level then 1 else 0

/-- An operation without operands: both fields must be 0 (R92). -/
def decodeNoOperand (i : Instr) (a b : Byte) : Except DecodeError Instr :=
  if a = 0 ∧ b = 0 then .ok i else .error .operandNotZero

/-- GET_FRAME's index, `{A, B}` (R92). -/
def frameIndex (a b : Byte) : BitVec 16 := a ++ b

/-- GET_FRAME: the index is `{A, B}`, legal up to 38399 (R92, R101). -/
def decodeGetFrame (a b : Byte) : Except DecodeError Instr :=
  if (frameIndex a b).toNat < fbLen then .ok (.getFrame (frameIndex a b)) else .error .indexTooLarge

/-- TXBYTE: A must be 0 (R92). -/
def decodeTxbyte (a b : Byte) : Except DecodeError Instr :=
  if a = 0 then .ok (.txbyte b) else .error .operandNotZero

/-- WAITW: A is a pin identifier, B a level (R92, R100, R101). -/
def decodeWaitw (a b : Byte) : Except DecodeError Instr :=
  match Pin.ofCode a with
  | none => .error .noSuchPin
  | some p => if b = 0 then .ok (.waitw p false) else if b = 1 then .ok (.waitw p true) else .error .noSuchLevel

/-- The class-0 rows of R91. -/
def decodeHost (op a b : Byte) : Except DecodeError Instr :=
  if op = 0x01 then decodeNoOperand .initialise a b
  else if op = 0x02 then decodeNoOperand .capture a b
  else if op = 0x03 then decodeGetFrame a b
  else if op = 0x04 then decodeNoOperand .configure a b
  else if op = 0x05 then .ok (.writeRegister a b)
  else .error .reservedOpcode

/-- The class-1 rows of R91. -/
def decodeTransport (op a b : Byte) : Except DecodeError Instr :=
  if op = 0x10 then decodeNoOperand .start a b
  else if op = 0x11 then decodeNoOperand .stop a b
  else if op = 0x12 then decodeTxbyte a b
  else .error .reservedOpcode

/-- The class-2 rows of R91. -/
def decodeCapture (op a b : Byte) : Except DecodeError Instr :=
  if op = 0x20 then decodeWaitw a b
  else if op = 0x21 then decodeNoOperand .sample a b
  else if op = 0x22 then decodeNoOperand .irqMask a b
  else if op = 0x23 then decodeNoOperand .irqRestore a b
  else if op = 0x24 then decodeNoOperand .delay a b
  else .error .reservedOpcode

/-- The operation map of R91 on the three fields of a word, by the class in bits 23:20 (R90). -/
def decodeFields (op a b : Byte) : Except DecodeError Instr :=
  if op.toNat < 0x10 then decodeHost op a b
  else if op.toNat < 0x20 then decodeTransport op a b
  else decodeCapture op a b

/-- The decoder: the operation a word names, or why it is reserved (R91, R101, R103). -/
def decode (w : OpWord) : Except DecodeError Instr := decodeFields w.opcode w.fieldA w.fieldB

/-- The opcode of R91. -/
def Instr.opcode : Instr → Byte
  | .initialise => 0x01
  | .capture => 0x02
  | .getFrame _ => 0x03
  | .configure => 0x04
  | .writeRegister _ _ => 0x05
  | .start => 0x10
  | .stop => 0x11
  | .txbyte _ => 0x12
  | .waitw _ _ => 0x20
  | .sample => 0x21
  | .irqMask => 0x22
  | .irqRestore => 0x23
  | .delay => 0x24

/-- The mnemonic of R91. -/
def Instr.mnemonic : Instr → String
  | .initialise => "INITIALIZE"
  | .capture => "CAPTURE"
  | .getFrame _ => "GET_FRAME"
  | .configure => "CONFIGURE"
  | .writeRegister _ _ => "WRITE_REGISTER"
  | .start => "START"
  | .stop => "STOP"
  | .txbyte _ => "TXBYTE"
  | .waitw _ _ => "WAITW"
  | .sample => "SAMPLE"
  | .irqMask => "IRQ_MASK"
  | .irqRestore => "IRQ_RESTORE"
  | .delay => "DELAY"

/-- The class of R91; DELAY is numbered in class 2 (R91). -/
def Instr.opClass : Instr → OpClass
  | .initialise | .capture | .getFrame _ | .configure | .writeRegister _ _ => .host
  | .start | .stop | .txbyte _ => .transport
  | .waitw _ _ | .sample | .irqMask | .irqRestore | .delay => .capture

/-- The number of a class in bits 23:20 (R90). -/
def OpClass.code : OpClass → BitVec 4
  | .host => 0
  | .transport => 1
  | .capture => 2

/-- Only class-0 words are accepted on the command port (R38, R90). -/
def Instr.isHost (i : Instr) : Bool := decide (i.opClass = .host)

/-- Operand A of the encoding (R91, R92). -/
def Instr.operandA : Instr → Byte
  | .getFrame index => index.extractLsb' 8 8
  | .writeRegister address _ => address
  | .waitw pin _ => pin.code
  | .initialise | .capture | .configure | .start | .stop | .txbyte _ | .sample | .irqMask | .irqRestore | .delay => 0

/-- Operand B of the encoding (R91, R92). -/
def Instr.operandB : Instr → Byte
  | .getFrame index => index.extractLsb' 0 8
  | .writeRegister _ value => value
  | .txbyte b => b
  | .waitw _ level => levelCode level
  | .initialise | .capture | .configure | .start | .stop | .sample | .irqMask | .irqRestore | .delay => 0

/-- The encoder (R90 to R92). -/
def encode (i : Instr) : OpWord := OpWord.pack i.opcode i.operandA i.operandB

/-- What a row of the table asks of its operand fields beyond its mask (R107). -/
inductive OperandLimit where
  | free
  /-- GET_FRAME: `w[15:0] <= 38399`. -/
  | frameIndex
  /-- WAITW: `w[15:8] <= 2`. -/
  | pinCode
  deriving DecidableEq, Repr

/-- One row of opcode_table.json: its mnemonic, mask, match and constraint (R107). -/
structure OpRow where
  mnemonic : String
  mask : OpWord
  pattern : OpWord
  limit : OperandLimit
  deriving DecidableEq, Repr

/-- The constraint of a row holds for a word (R107). -/
def OperandLimit.holds : OperandLimit → OpWord → Bool
  | .free, _ => true
  | .frameIndex, w => decide ((w.extractLsb' 0 16).toNat ≤ 38399)
  | .pinCode, w => decide ((w.extractLsb' 8 8).toNat ≤ 2)

/-- A word selects a row: `(w & mask) = match` and the constraint holds (R107). -/
def OpRow.selects (r : OpRow) (w : OpWord) : Bool := decide (w &&& r.mask = r.pattern) && r.limit.holds w

/-- The rows of opcode_table.json, in its order (R107). -/
def opTable : List OpRow := [
  ⟨"INITIALIZE", 0xFFFFFF, 0x010000, .free⟩,
  ⟨"CAPTURE", 0xFFFFFF, 0x020000, .free⟩,
  ⟨"GET_FRAME", 0xFF0000, 0x030000, .frameIndex⟩,
  ⟨"CONFIGURE", 0xFFFFFF, 0x040000, .free⟩,
  ⟨"WRITE_REGISTER", 0xFF0000, 0x050000, .free⟩,
  ⟨"START", 0xFFFFFF, 0x100000, .free⟩,
  ⟨"STOP", 0xFFFFFF, 0x110000, .free⟩,
  ⟨"TXBYTE", 0xFFFF00, 0x120000, .free⟩,
  ⟨"WAITW", 0xFFFCFE, 0x200000, .pinCode⟩,
  ⟨"SAMPLE", 0xFFFFFF, 0x210000, .free⟩,
  ⟨"IRQ_MASK", 0xFFFFFF, 0x220000, .free⟩,
  ⟨"IRQ_RESTORE", 0xFFFFFF, 0x230000, .free⟩,
  ⟨"DELAY", 0xFFFFFF, 0x240000, .free⟩]

/-- The decoder as an Option. -/
def decode? (w : OpWord) : Option Instr :=
  match decode w with
  | .ok i => some i
  | .error _ => none

/-- The instruction the decoder reads from a table row's word (assumption 25). A table word has 24 bits or fewer; the bits
above `nbits` are 0. -/
def decodeTableWord (nbits w : Nat) : Option Instr :=
  if nbits ≤ 24 then decode? (BitVec.ofNat 24 (w % 2 ^ nbits)) else none

end Sys2Proof
end

