-- ==== Sys2Proof/Machine/State.lean ====
section
/-! DEFINITION. The architectural state of 10_state.md, the environment the block reads and changes, the state after reset,
and the reasons a step can stop. -/

namespace Sys2Proof.Machine

/-- `fce_state` (R24). The reserved codes 9 to 15 have no constructor (U13). -/
inductive FceState where
  | idle
  | vsWhileLow
  | vsWhileHigh
  | hsWhileLow
  | hsWhileHigh
  | pkWhileHigh
  | pkWhileLow
  | sample
  | complete
  deriving DecidableEq, Repr

/-- `cbw_state` (R30). The reserved codes 13 to 15 have no constructor (U13). -/
inductive CbwState where
  | idle
  | s1
  | s2
  | b1
  | b2
  | b3
  | a1
  | a2
  | a3
  | a4
  | p1
  | p2
  | p3
  deriving DecidableEq, Repr

/-- `cfg_state` (R34). -/
inductive CfgState where
  | idle
  | fetch
  | write
  | settle
  deriving DecidableEq, Repr

/-- The Frame Capture Engine's registers (R22 to R26). -/
structure FceRegs where
  state : FceState
  line : BitVec 7
  column : BitVec 8
  byteIndex : BitVec 16
  edge : BitVec 2
  /-- `pulse` (R23): `true` when one HSYNC pulse of the line has been consumed. -/
  pulse : Bool
  irqSaved : IrqState
  deriving DecidableEq, Repr

/-- The Control-Bus Writer's registers and its two output pins (R29 to R32). -/
structure CbwRegs where
  state : CbwState
  wrAddr : Byte
  wrVal : Byte
  bytesel : BitVec 2
  sh : Byte
  bitcnt : BitVec 3
  ack : Bool
  ok : Bool
  scl : Bool
  sdaM : Bool
  deriving DecidableEq, Repr

/-- The Sensor Configurator's registers (R33, R34). `settleCnt` is a natural number: as wide as SETTLE_TICKS needs (R33). -/
structure CfgRegs where
  state : CfgState
  idx : BitVec 16
  settleCnt : Nat
  errIndex : BitVec 16
  deriving DecidableEq, Repr

/-- The five stored flags (R36); BUSY is combinational. -/
structure Flags where
  frameDone : Bool
  cfgOk : Bool
  cfgErr : Bool
  wrOk : Bool
  irqMasked : Bool
  deriving DecidableEq, Repr

/-- A memory: address and byte pairs, addresses strictly rising. An unlisted address holds no byte that anything has written. -/
abbrev Memory := List Host.Cell

/-- What the host does during one step (R230, R236, R280). -/
inductive HostEvent where
  /-- Nothing. -/
  | quiet
  /-- It presents an operation word on CMD with a strobe (R38). -/
  | word (w : OpWord)
  /-- The reset event (R280). -/
  | reset
  deriving DecidableEq, Repr

/-- What the platform does to its own interrupt mask during one step (R9, R41, U21). -/
inductive PlatformMove where
  /-- It leaves its mask. -/
  | leave
  /-- It changes its mask to `m`. -/
  | setMask (m : IrqState)
  deriving DecidableEq, Repr

/-- The MODEL'S own: the environment's coming moves, so that a step needs no argument (assumption 1). -/
structure Env where
  /-- The snapshots of the coming ticks; when none is listed, `Config.freeSnapshot tick`. -/
  pins : List Snapshot
  /-- The tick counter `t` of R16, the number of polls made. -/
  tick : Nat
  /-- The sensor's contributions to SDA at the coming acknowledge samples; when none is listed, `Config.freeSda draws`. -/
  acks : List Bool
  /-- The number of acknowledge draws taken. -/
  draws : Nat
  /-- What the host does at the coming steps, one entry a step; nothing when the list is at its end. -/
  host : List HostEvent
  /-- What the platform does to its interrupt mask at the coming steps, one entry a step; nothing when the list is at its end
  (assumption 13). -/
  platform : List PlatformMove
  /-- An internal operation word to run by itself at the next step, whatever the sequencers would issue; none on the
  hardware (assumption 6). -/
  issue : Option OpWord
  deriving DecidableEq, Repr

/-- The state of the block (R20), of its memories, of the environment it changes (R41), its parameters and its inputs. -/
structure State where
  fce : FceRegs
  cbw : CbwRegs
  cfg : CfgRegs
  flags : Flags
  /-- RDATA, the byte GET_FRAME returned last (R21, R234). R20 does not list it as state and R43 does not say that it carries over.
  DESIGN CHOICE (assumption 26): it keeps the byte until the next accepted GET_FRAME or a reset. -/
  rdata : Byte
  /-- The frame buffer, address space `FB` (R60, R61). -/
  fb : Memory
  /-- The sensor's registers as this block has written them, address space `SENSOR` (R41, R60, R63); unlisted: not known. -/
  sensor : Memory
  /-- The platform's interrupt mask (R41), which the block (R200, R201) and the platform itself (R9, U21) change. -/
  irqMask : IrqState
  /-- The parameters (R12); no step changes them. -/
  params : Params
  env : Env
  deriving DecidableEq, Repr

/-- Why the machine stops. The block has no fault state (R10); both stand for an address that does not exist, and no run
from reset reaches one. -/
inductive Fault where
  /-- Raised by SAMPLE when `byteIndex` is above 38399: there is no such frame-buffer address (R61). Safe. -/
  | noFrameAddress
  /-- Raised by the configurator's FETCH when `idx` is above TABLE_LEN: there is no such entry (R60, R62). Safe. -/
  | noTableEntry
  deriving DecidableEq, Repr

/-- Why an operation is refused. -/
inductive Refusal where
  /-- Raised by an arm of exec whose instruction has no meaning yet. Safe. -/
  | notModelled (mnemonic : String)
  /-- Raised by the five host operations while BUSY = 1: not accepted, nothing changes (R230). Safe. -/
  | busy
  /-- Raised by GET_FRAME with an index above 38399: a reserved operand (R101, R234). Safe. -/
  | reservedOperand
  /-- Raised by the step when `env.issue` holds a word that names no operation (R101). Safe. -/
  | reservedWord (w : OpWord)
  deriving DecidableEq, Repr

/-- The FCE's registers after reset: IDLE (R42); the others, which R42 leaves unspecified, at the values assumption 4 names. -/
def FceRegs.reset : FceRegs :=
  { state := .idle, line := 0, column := 0, byteIndex := 0, edge := 0, pulse := false, irqSaved := .mask 0 }

/-- The CBW's registers after reset: IDLE, both pins 1 (R42); the others at the values assumption 4 names. -/
def CbwRegs.reset : CbwRegs :=
  { state := .idle, wrAddr := 0, wrVal := 0, bytesel := 0, sh := 0, bitcnt := 0, ack := false, ok := false,
    scl := true, sdaM := true }

/-- The CFG's registers after reset: IDLE, ERR_INDEX 0 (R42); the others at the values assumption 4 names. -/
def CfgRegs.reset : CfgRegs := { state := .idle, idx := 0, settleCnt := 0, errIndex := 0 }

/-- The flags after reset, all 0 (R42). -/
def Flags.reset : Flags :=
  { frameDone := false, cfgOk := false, cfgErr := false, wrOk := false, irqMasked := false }

/-- No input listed: every snapshot and draw is a free value, the host and the platform are silent (assumptions 1, 13). -/
def Env.start : Env := { pins := [], tick := 0, acks := [], draws := 0, host := [], platform := [], issue := none }

/-- The machine after power-up reset (R42, R280): idle, with nothing known of the frame buffer, the sensor or the platform's
interrupt mask. -/
def State.reset : State :=
  { fce := FceRegs.reset, cbw := CbwRegs.reset, cfg := CfgRegs.reset, flags := Flags.reset, rdata := 0, fb := [],
    sensor := [], irqMask := Config.irqMaskAtReset, params := Config.params, env := Env.start }

end Sys2Proof.Machine
end

