-- ==== Sys2Proof/Machine/Ops.lean ====
section
/-! DEFINITION. The named operations over memory, registers and inputs, among them the one error entry of the block. -/

namespace Sys2Proof.Machine

/-! ### Memory -/

/-- The canonical form: addresses strictly rising. An unlisted address holds no written byte, so no listed cell can equal what
an unlisted one holds. -/
abbrev Memory.wf (m : Memory) : Prop := m.Pairwise fun x y => x.1 < y.1

/-- Every listed address exists in a space of `n` bytes. -/
abbrev Memory.within (m : Memory) (n : Nat) : Prop := ∀ c ∈ m, c.1 < n

/-- The byte last written at `a`, if any was. -/
def Memory.read? : Memory → Nat → Option Byte
  | [], _ => none
  | (k, v) :: rest, a => if k = a then some v else Memory.read? rest a

/-- Write one byte, keeping the addresses rising. -/
def Memory.write : Memory → Nat → Byte → Memory
  | [], a, b => [(a, b)]
  | (k, v) :: rest, a, b =>
    if a < k then (a, b) :: (k, v) :: rest
    else if a = k then (a, b) :: rest
    else (k, v) :: Memory.write rest a b

/-- Forget what is at `a`: nothing is known of it any more. -/
def Memory.erase (m : Memory) (a : Nat) : Memory := m.filter fun c => c.1 != a

/-- `MemRead(FB, a, 1)` (R15, R60): the byte the latest SAMPLE to `a` stored, or the free, stable byte of an address nothing
has written (R72, R234, U1). -/
def State.readFrame (s : State) (a : Nat) : Byte := (Memory.read? s.fb a).getD (Config.freeByte a)

/-- `MemWrite(FB, a, 1, b)` (R15, R71): complete in its step. -/
def State.writeFrame (s : State) (a : Nat) (b : Byte) : State := { s with fb := Memory.write s.fb a b }

/-- `MemRead(TABLE, k, 2)` (R62, R98): entry `k` of the Register Table as one 16-bit value. -/
def State.readTable? (s : State) (k : Nat) : Option (BitVec 16) := (s.params.table[k]?).map RegEntry.word

/-- The byte at offset `a` of the table (R62): entry `k` has its address at `2k` and its value at `2k + 1`. -/
def State.tableByte? (s : State) (a : Nat) : Option Byte :=
  (s.readTable? (a / 2)).map fun w => if a % 2 = 0 then w.extractLsb' 8 8 else w.extractLsb' 0 8

/-- Entry `k` of the Register Table, taken apart (R98, R121). -/
def State.tableEntry? (s : State) (k : Nat) : Option RegEntry := (s.readTable? k).map RegEntry.ofWord

/-! ### Inputs -/

/-- The snapshot of the tick `k` ticks from now (R16). -/
def Env.snapshotAt (e : Env) (k : Nat) : Snapshot := (e.pins[k]?).getD (Config.freeSnapshot (e.tick + k))

/-- The sensor's contribution to SDA at the acknowledge sample `k` draws from now (R16, R32). -/
def Env.sdaAt (e : Env) (k : Nat) : Bool := (e.acks[k]?).getD (Config.freeSda (e.draws + k))

/-- The snapshot of the current tick (R16). -/
def State.snapshot (s : State) : Snapshot := s.env.snapshotAt 0

/-- The inputs after a poll, which consumes its tick (R16). -/
def Env.nextTick (e : Env) : Env := { e with pins := e.pins.tail, tick := e.tick + 1 }

/-- The inputs after an acknowledge sample, which takes its draw, one per transmitted byte (R16). -/
def Env.nextDraw (e : Env) : Env := { e with acks := e.acks.tail, draws := e.draws + 1 }

/-- The inputs after the host's and the platform's moves of this step. -/
def Env.nextMoves (e : Env) : Env := { e with host := e.host.tail, platform := e.platform.tail }

/-- The inputs after the issued internal word is taken (assumption 6). -/
def Env.clearIssue (e : Env) : Env := { e with issue := none }

/-- A poll consumes its tick (R16). -/
def State.nextTick (s : State) : State := { s with env := s.env.nextTick }

/-- An acknowledge sample takes its draw (R16). -/
def State.nextDraw (s : State) : State := { s with env := s.env.nextDraw }

/-- The interrupt mask after the platform's own move of this step (R9, R41). While IRQ_MASKED is 1 the collaborator holds it
all-masked for the block, from CAPTURE to COMPLETE (R197, R200, R257). DEDUCED (assumption 13): a move that comes then has no
effect. -/
def State.platformMask (s : State) : IrqState :=
  match s.env.platform.head? with
  | some (.setMask m) => if s.flags.irqMasked then s.irqMask else m
  | some .leave | none => s.irqMask

/-- The moves of this step of the host and of the platform are made, before the block's own. -/
def State.nextMoves (s : State) : State := { s with irqMask := s.platformMask, env := s.env.nextMoves }

/-- The issued internal word is taken (assumption 6). -/
def State.clearIssue (s : State) : State := { s with env := s.env.clearIssue }

/-- `SDA_IN`, the level of the line: the AND of `SDA_M` and the sensor's contribution (R32). -/
def State.sdaIn (s : State) : Bool := s.cbw.sdaM && s.env.sdaAt 0

/-! ### The interrupt-masking collaborator -/

/-- `irq_saved <- IrqMaskAll()` and `IRQ_MASKED <- 1` (R200). -/
def State.maskInterrupts (s : State) : State :=
  { s with
    fce := { s.fce with irqSaved := s.irqMask }
    irqMask := .allMasked
    flags := { s.flags with irqMasked := true } }

/-- `IrqRestore(irq_saved)` and `IRQ_MASKED <- 0` (R201). -/
def State.restoreInterrupts (s : State) : State :=
  { s with irqMask := s.fce.irqSaved, flags := { s.flags with irqMasked := false } }

/-! ### The starts that more than one operation makes -/

/-- Acceptance of CONFIGURE, and of INITIALIZE, whose effect here is exactly that (R120, R231). -/
def State.startConfigure (s : State) : State :=
  { s with
    cfg := { s.cfg with idx := 0, state := .fetch }
    flags := { s.flags with cfgOk := false, cfgErr := false } }

/-- Start of a register write (R143); it changes no pin. -/
def State.startWrite (s : State) (address value : Byte) : State :=
  { s with cbw := { s.cbw with wrAddr := address, wrVal := value, ok := true, bytesel := 0, state := .s1 } }

/-- `byte(i)` of R143: the device address byte, the register address, the value. `bytesel` is 0 to 2 (R29). -/
def State.busByte (s : State) (i : BitVec 2) : Byte :=
  if i = 0 then s.params.devAddr else if i = 1 then s.cbw.wrAddr else s.cbw.wrVal

/-! ### The block's one error, and reset -/

/-- Entry of `BusFailure(idx)` (R123, R259): the index is recorded, CFG_ERR set and the configurator IDLE; control returns to
the host. There is no handler, no saved position and no operation that returns from it (R260). -/
def State.raiseBusFailure (s : State) : State :=
  { s with
    cfg := { s.cfg with errIndex := s.cfg.idx, state := .idle }
    flags := { s.flags with cfgErr := true } }

/-- The reset event (R280 to R282): every register as after power-up, the frame buffer and the platform's interrupt mask as
they are (the platform's move of the step comes after it, `machineStep`), the sensor's configuration unknown (R282, U22,
assumption 16). -/
def State.applyReset (s : State) : State :=
  { State.reset with fb := s.fb, irqMask := s.irqMask, params := s.params, env := s.env }

end Sys2Proof.Machine
end

