-- ==== Sys2Proof/Machine/Operands.lean ====
section
/-! DEFINITION. Operand forms: pins and levels of WAITW, the sampled byte, the raster address. -/

namespace Sys2Proof

/-- `Pin(name)` in a snapshot (R15, R100). -/
def Snapshot.pin (x : Snapshot) : Pin → Bool
  | .vsync => x.vsync
  | .hsync => x.hsync
  | .pclk => x.pclk

/-- The sampled byte, format `PIX8`: `{D7, DPORT[6:0]}` (R66, R96). -/
def Snapshot.pix8 (x : Snapshot) : Byte := BitVec.ofBool x.d7 ++ x.dport

/-- The address of the first-sampled byte of pixel `(row, col)` (R67, R97); the hardware never computes it (R191). -/
def rasterAddress (row col : Nat) : Nat := 2 * (row * Config.width + col)

/-- The sequencer state whose step is `WAITW pin, level` (R183 to R186). -/
def Machine.waitState : Pin → Bool → Machine.FceState
  | .vsync, false => .vsWhileLow
  | .vsync, true => .vsWhileHigh
  | .hsync, false => .hsWhileLow
  | .hsync, true => .hsWhileHigh
  | .pclk, true => .pkWhileHigh
  | .pclk, false => .pkWhileLow

end Sys2Proof
end

