-- ==== Sys2Proof/Machine/Capture.lean ====
section
/-! DEFINITION. The Frame Capture Engine's operations WAITW, SAMPLE, IRQ_MASK and IRQ_RESTORE
(43_frame_capture_engine.md). -/

namespace Sys2Proof.Machine

/-- `advance` (R188): the cursor update at the end of every edge. R14 and R22 say that no increment wraps and give the ranges
0 to 159 for the column and 0 to 119 for the line here; they leave open what follows outside them. DESIGN CHOICE there
(assumption 21): the tests take the exact sum, so that a column of 160 or more ends the line and a line of 120 or more ends the
frame; the registers hold that sum in their widths, so that column 255 and line 127 become 0. -/
def FceRegs.advance (f : FceRegs) : FceRegs :=
  if f.edge ≠ 3 then { f with edge := f.edge + 1, state := .pkWhileHigh }
  else if f.column.toNat + 1 < Config.width then { f with edge := 0, column := f.column + 1, state := .pkWhileHigh }
  else if f.line.toNat + 1 < Config.height then
    { f with edge := 0, column := f.column + 1, line := f.line + 1, state := .hsWhileLow }
  else { f with edge := 0, column := f.column + 1, line := f.line + 1, state := .complete }

/-- What the engine's registers become when a WAITW ends (R183 to R186). -/
def FceRegs.leaveWait (f : FceRegs) : Pin → Bool → FceRegs
  | .vsync, false => { f with state := .vsWhileHigh }
  | .vsync, true => { f with pulse := false, state := .hsWhileLow }
  | .hsync, false => { f with state := .hsWhileHigh }
  | .hsync, true =>
    if f.pulse then { f with pulse := false, column := 0, edge := 0, state := .pkWhileHigh }
    else { f with pulse := true, state := .hsWhileLow }
  | .pclk, true => { f with state := .pkWhileLow }
  | .pclk, false => if f.edge.toNat < 2 then { f with state := .sample } else f.advance

/-- The engine's registers after one poll that read `x` (R182): equal to the level, the same wait goes on; otherwise it is
over. -/
def FceRegs.poll (f : FceRegs) (pin : Pin) (level x : Bool) : FceRegs :=
  if x = level then { f with state := waitState pin level } else f.leaveWait pin level

/-- WAITW pin, level (R182): one poll of the current tick's snapshot, which consumes the tick. -/
def execWaitw (pin : Pin) (level : Bool) (s : State) : Host.Outcome State Fault Refusal :=
  .next { s with fce := s.fce.poll pin level (s.snapshot.pin pin) }.nextTick

/-- SAMPLE's writes (R187): the byte to FB[byteIndex], `byteIndex + 1`, `advance`; the tick is consumed. -/
def State.storeSample (s : State) : State :=
  { s.writeFrame s.fce.byteIndex.toNat s.snapshot.pix8 with
    fce := { s.fce with byteIndex := s.fce.byteIndex + 1 }.advance }.nextTick

/-- SAMPLE (R187). There is no frame-buffer address above 38399 (R61) and no run generates one (R28, assumption 14). -/
def execSample (s : State) : Host.Outcome State Fault Refusal :=
  if s.fce.byteIndex.toNat < fbLen then .next s.storeSample else .fault .noFrameAddress

/-- IRQ_MASK (R200). -/
def execIrqMask (s : State) : Host.Outcome State Fault Refusal := .next s.maskInterrupts

/-- IRQ_RESTORE (R201). -/
def execIrqRestore (s : State) : Host.Outcome State Fault Refusal := .next s.restoreInterrupts

/-- Step COMPLETE (R190): IRQ_RESTORE, then FRAME_DONE 1 and IDLE. It has no operation word of its own (assumption 9). -/
def State.completeCapture (s : State) : State :=
  let r := s.restoreInterrupts
  { r with fce := { r.fce with state := .idle }, flags := { r.flags with frameDone := true } }

end Sys2Proof.Machine
end

