-- ==== Sys2Proof/Machine/Configurator.lean ====
section
/-! DEFINITION. The Sensor Configurator's steps FETCH, WRITE and SETTLE, the last being DELAY
(41_sensor_configurator.md). -/

namespace Sys2Proof.Machine

/-- Step FETCH (R121): CONFIGURE ends with `Ok` after the last entry; otherwise the write of entry `idx` starts. There is no
entry above TABLE_LEN and no run asks for one (assumption 14). -/
def State.fetchEntry (s : State) : Host.Outcome State Fault Refusal :=
  if s.cfg.idx.toNat = s.params.tableLen then
    .next { s with cfg := { s.cfg with state := .idle }, flags := { s.flags with cfgOk := true } }
  else
    match s.tableEntry? s.cfg.idx.toNat with
    | some e => .next { s.startWrite e.address e.value with cfg := { s.cfg with state := .write } }
    | none => .fault .noTableEntry

/-- Step WRITE (R123): the settle delay after a successful write, `BusFailure(idx)` after a failed one. -/
def State.judgeWrite (s : State) : State :=
  if s.flags.wrOk then { s with cfg := { s.cfg with settleCnt := s.params.settleTicks, state := .settle } }
  else s.raiseBusFailure

/-- The state in which a DELAY is taken: as it is inside a settle delay, at the delay's first step otherwise
(assumption 7). -/
def State.enterDelay (s : State) : State :=
  if s.cfg.state = .settle then s
  else { s with cfg := { s.cfg with settleCnt := s.params.settleTicks, state := .settle } }

/-- One step of the settle delay (R124). Outside the ranges of R33 a `settle_cnt` of 0 ends the delay at once and an `idx` of
65535 is followed by 0 (DESIGN CHOICE, assumption 21). -/
def State.delayStep (s : State) : State :=
  if s.cfg.settleCnt - 1 = 0 then
    { s with cfg := { s.cfg with settleCnt := s.cfg.settleCnt - 1, idx := s.cfg.idx + 1, state := .fetch } }
  else { s with cfg := { s.cfg with settleCnt := s.cfg.settleCnt - 1 } }

/-- DELAY, step SETTLE (R124). It reads no pin and consumes no tick of `t` (R16, assumption 11). -/
def execDelay (s : State) : Host.Outcome State Fault Refusal := .next s.enterDelay.delayStep

end Sys2Proof.Machine
end

