-- ==== Sys2Proof/Machine/Flags.lean ====
section
/-! DEFINITION. BUSY, the STATUS word, the numeric state codes and the error codes. -/

namespace Sys2Proof.Machine

/-- BUSY (R36): any of the three sequencers is not IDLE. -/
def State.busy (s : State) : Bool :=
  !(decide (s.fce.state = .idle) && decide (s.cfg.state = .idle) && decide (s.cbw.state = .idle))

/-- A flag in bit `i` of a 32-bit word. -/
def flagBit (flag : Bool) (i : Nat) : BitVec 32 := (BitVec.ofBool flag).setWidth 32 <<< i

/-- STATUS (R37): the flags in bits 0 to 5, bits 15:6 zero, ERR_INDEX in bits 31:16. -/
def State.status (s : State) : BitVec 32 :=
  flagBit s.busy 0 ||| flagBit s.flags.frameDone 1 ||| flagBit s.flags.cfgOk 2 ||| flagBit s.flags.cfgErr 3
    ||| flagBit s.flags.wrOk 4 ||| flagBit s.flags.irqMasked 5 ||| s.cfg.errIndex.setWidth 32 <<< 16

/-- The numeric codes of `fce_state` (R24), for traces. -/
def FceState.code : FceState → BitVec 4
  | .idle => 0
  | .vsWhileLow => 1
  | .vsWhileHigh => 2
  | .hsWhileLow => 3
  | .hsWhileHigh => 4
  | .pkWhileHigh => 5
  | .pkWhileLow => 6
  | .sample => 7
  | .complete => 8

/-- The numeric codes of `cbw_state` (R30), for traces. -/
def CbwState.code : CbwState → BitVec 4
  | .idle => 0
  | .s1 => 1
  | .s2 => 2
  | .b1 => 3
  | .b2 => 4
  | .b3 => 5
  | .a1 => 6
  | .a2 => 7
  | .a3 => 8
  | .a4 => 9
  | .p1 => 10
  | .p2 => 11
  | .p3 => 12

/-- The numeric codes of `cfg_state` (R34), for traces. -/
def CfgState.code : CfgState → BitVec 2
  | .idle => 0
  | .fetch => 1
  | .write => 2
  | .settle => 3

/-- The result of the latest INITIALIZE or CONFIGURE as an error: `BusFailure(k)` while CFG_ERR = 1 (R250, R251). -/
def State.busFailure? (s : State) : Option (BitVec 16) := if s.flags.cfgErr then some s.cfg.errIndex else none

/-- The error code of R251: 0 no error, 1 `BusFailure`; 2 (`Timeout`) and above are never produced (R256). -/
def State.errorCode (s : State) : Nat := if s.flags.cfgErr then 1 else 0

end Sys2Proof.Machine
end

