-- ==== Sys2Proof/Machine/HostOps.lean ====
section
/-! DEFINITION. The five host operations (44_host_operations.md; R120, R141): each is accepted only while BUSY = 0 and is one
step (R230). -/

namespace Sys2Proof.Machine

/-- INITIALIZE (R231): inside this block exactly CONFIGURE. -/
def execInitialise (s : State) : Host.Outcome State Fault Refusal :=
  if s.busy then .refused .busy else .next s.startConfigure

/-- CONFIGURE, the accepting step (R120). -/
def execConfigure (s : State) : Host.Outcome State Fault Refusal :=
  if s.busy then .refused .busy else .next s.startConfigure

/-- What accepting CAPTURE writes (R181): interrupts masked, FRAME_DONE 0, the cursor 0. The frame buffer is not cleared. -/
def State.startCapture (s : State) : State :=
  let m := s.maskInterrupts
  { m with
    fce := { m.fce with state := .vsWhileLow, line := 0, column := 0, byteIndex := 0, edge := 0, pulse := false }
    flags := { m.flags with frameDone := false } }

/-- CAPTURE, the accepting step (R181, R232). -/
def execCapture (s : State) : Host.Outcome State Fault Refusal :=
  if s.busy then .refused .busy else .next s.startCapture

/-- GET_FRAME index (R234): `RDATA <- MemRead(FB, index, 1)`; an index above 38399 is reserved (R101). -/
def execGetFrame (index : BitVec 16) (s : State) : Host.Outcome State Fault Refusal :=
  if s.busy then .refused .busy
  else if index.toNat < fbLen then .next { s with rdata := s.readFrame index.toNat }
  else .refused .reservedOperand

/-- WRITE_REGISTER address, value, the accepting step (R141, R143). -/
def execWriteRegister (address value : Byte) (s : State) : Host.Outcome State Fault Refusal :=
  if s.busy then .refused .busy else .next (s.startWrite address value)

end Sys2Proof.Machine
end

