-- ==== Sys2Proof/Machine/Transport.lean ====
section
/-! DEFINITION. The three transport primitives START, TXBYTE and STOP (42_control_bus_writer.md), one CBW step at a time. The
sequencer issues the primitive its state belongs to (R30) until it is done; a primitive issued from a state outside it begins
at its first step (assumption 7). -/

namespace Sys2Proof.Machine

/-- Step S1 (R144): SDA falls while SCL is high. -/
def State.stepS1 (s : State) : State := { s with cbw := { s.cbw with sdaM := false, state := .s2 } }

/-- Step S2 (R145). -/
def State.stepS2 (s : State) : State :=
  { s with cbw := { s.cbw with scl := false, sh := s.busByte 0, bitcnt := 7, state := .b1 } }

/-- One step of START (R151). -/
def State.startStep (s : State) : State := if s.cbw.state = .s2 then s.stepS2 else s.stepS1

/-- START (R151). -/
def execStart (s : State) : Host.Outcome State Fault Refusal := .next s.startStep

/-- Step B1 (R146): the bit is put on the line while SCL is low. -/
def State.stepB1 (s : State) : State :=
  { s with cbw := { s.cbw with sdaM := s.cbw.sh.getLsbD s.cbw.bitcnt.toNat, state := .b2 } }

/-- Step B2 (R146). -/
def State.stepB2 (s : State) : State := { s with cbw := { s.cbw with scl := true, state := .b3 } }

/-- Step B3 (R147): the next bit, or the acknowledge. -/
def State.stepB3 (s : State) : State :=
  if s.cbw.bitcnt = 0 then { s with cbw := { s.cbw with scl := false, state := .a1 } }
  else { s with cbw := { s.cbw with scl := false, bitcnt := s.cbw.bitcnt - 1, state := .b1 } }

/-- Step A1 (R148): SDA is released while SCL is low. -/
def State.stepA1 (s : State) : State := { s with cbw := { s.cbw with sdaM := true, state := .a2 } }

/-- Step A2 (R148). -/
def State.stepA2 (s : State) : State := { s with cbw := { s.cbw with scl := true, state := .a3 } }

/-- Step A3 (R148): the line low means acknowledged. -/
def State.stepA3 (s : State) : State :=
  { s with cbw := { s.cbw with ack := !s.sdaIn, ok := s.cbw.ok && !s.sdaIn, state := .a4 } }.nextDraw

/-- The write goes to its stop condition after this byte (R149). -/
def State.lastByte (s : State) : Bool :=
  decide (s.cbw.bytesel = 2) || (s.params.abortOnNack && !s.cbw.ok)

/-- Step A4 (R149): the next byte, or the stop condition. A `bytesel` of 3, outside R29's range, is followed by 0 (DESIGN
CHOICE, assumption 21). -/
def State.stepA4 (s : State) : State :=
  if s.lastByte then { s with cbw := { s.cbw with scl := false, state := .p1 } }
  else { s with cbw := { s.cbw with
    scl := false, bytesel := s.cbw.bytesel + 1, sh := s.busByte (s.cbw.bytesel + 1), bitcnt := 7, state := .b1 } }

/-- The sequencer stands inside a TXBYTE (R30). -/
def CbwState.inTxbyte : CbwState → Bool
  | .b1 | .b2 | .b3 | .a1 | .a2 | .a3 | .a4 => true
  | .idle | .s1 | .s2 | .p1 | .p2 | .p3 => false

/-- The state in which a step of `TXBYTE b` is taken: as it is while `b` is being sent, at the byte's first step otherwise. -/
def State.enterTxbyte (s : State) (b : Byte) : State :=
  if s.cbw.state.inTxbyte && decide (s.cbw.sh = b) then s
  else { s with cbw := { s.cbw with sh := b, bitcnt := 7, state := .b1 } }

/-- One step of TXBYTE in the state it has reached (R152). -/
def State.txbyteStep (s : State) : State :=
  match s.cbw.state with
  | .b2 => s.stepB2
  | .b3 => s.stepB3
  | .a1 => s.stepA1
  | .a2 => s.stepA2
  | .a3 => s.stepA3
  | .a4 => s.stepA4
  | .b1 | .idle | .s1 | .s2 | .p1 | .p2 | .p3 => s.stepB1

/-- TXBYTE b (R152). -/
def execTxbyte (b : Byte) (s : State) : Host.Outcome State Fault Refusal := .next (s.enterTxbyte b).txbyteStep

/-- Step P1 (R150). -/
def State.stepP1 (s : State) : State := { s with cbw := { s.cbw with sdaM := false, state := .p2 } }

/-- Step P2 (R150). -/
def State.stepP2 (s : State) : State := { s with cbw := { s.cbw with scl := true, state := .p3 } }

/-- What is known of the sensor's registers when a write has ended (R41, R127, U6, assumption 12): the value if all three
bytes were acknowledged, nothing otherwise. -/
def State.sensorAfterWrite (s : State) : Memory :=
  if s.cbw.ok && decide (s.cbw.bytesel = 2) then Memory.write s.sensor s.cbw.wrAddr.toNat s.cbw.wrVal
  else Memory.erase s.sensor s.cbw.wrAddr.toNat

/-- Step P3 (R150): SDA rises while SCL is high, and the result is published. -/
def State.stepP3 (s : State) : State :=
  { s with
    cbw := { s.cbw with sdaM := true, state := .idle }
    flags := { s.flags with wrOk := s.cbw.ok }
    sensor := s.sensorAfterWrite }

/-- One step of STOP (R153). -/
def State.stopStep (s : State) : State :=
  match s.cbw.state with
  | .p2 => s.stepP2
  | .p3 => s.stepP3
  | .p1 | .idle | .s1 | .s2 | .b1 | .b2 | .b3 | .a1 | .a2 | .a3 | .a4 => s.stepP1

/-- STOP (R153). -/
def execStop (s : State) : Host.Outcome State Fault Refusal := .next s.stopStep

end Sys2Proof.Machine
end

