-- ==== Sys2Proof/Machine/Dispatch.lean ====
section
/-! DEFINITION. One arm per operation of R91. -/

namespace Sys2Proof.Machine

def exec (i : Instr) (s : State) : Host.Outcome State Fault Refusal :=
  match i with
  | .initialise => Sys2Proof.Machine.execInitialise s
  | .capture => Sys2Proof.Machine.execCapture s
  | .getFrame index => Sys2Proof.Machine.execGetFrame index s
  | .configure => Sys2Proof.Machine.execConfigure s
  | .writeRegister address value => Sys2Proof.Machine.execWriteRegister address value s
  | .start => Sys2Proof.Machine.execStart s
  | .stop => Sys2Proof.Machine.execStop s
  | .txbyte b => Sys2Proof.Machine.execTxbyte b s
  | .waitw pin level => Sys2Proof.Machine.execWaitw pin level s
  | .sample => Sys2Proof.Machine.execSample s
  | .irqMask => Sys2Proof.Machine.execIrqMask s
  | .irqRestore => Sys2Proof.Machine.execIrqRestore s
  | .delay => Sys2Proof.Machine.execDelay s

end Sys2Proof.Machine
end

