-- ==== Sys2Proof/Machine/Sequencer.lean ====
section
/-! DEFINITION. Which unit steps (R35), which operation it issues (R24, R30, R34), and what happens to a word on the command
port (R38, R101, R230). -/

namespace Sys2Proof.Machine

/-- The operation the writer issues in each of its states (R30). -/
def CbwRegs.issues (c : CbwRegs) : Option Instr :=
  match c.state with
  | .idle => none
  | .s1 | .s2 => some .start
  | .b1 | .b2 | .b3 | .a1 | .a2 | .a3 | .a4 => some (.txbyte c.sh)
  | .p1 | .p2 | .p3 => some .stop

/-- The operation the engine issues in each of its states (R183 to R187). COMPLETE has no operation word (assumption 9). -/
def FceRegs.issues (f : FceRegs) : Option Instr :=
  match f.state with
  | .idle | .complete => none
  | .vsWhileLow => some (.waitw .vsync false)
  | .vsWhileHigh => some (.waitw .vsync true)
  | .hsWhileLow => some (.waitw .hsync false)
  | .hsWhileHigh => some (.waitw .hsync true)
  | .pkWhileHigh => some (.waitw .pclk true)
  | .pkWhileLow => some (.waitw .pclk false)
  | .sample => some .sample

/-- A step of the writer (R30). -/
def State.cbwStep (s : State) : Host.Outcome State Fault Refusal :=
  match s.cbw.issues with
  | some i => exec i s
  | none => .next s

/-- A step of the configurator (R34). FETCH and WRITE have no operation word (assumption 9). -/
def State.cfgStep (s : State) : Host.Outcome State Fault Refusal :=
  match s.cfg.state with
  | .idle => .next s
  | .fetch => s.fetchEntry
  | .write => .next s.judgeWrite
  | .settle => exec .delay s

/-- A step of the engine (R189). -/
def State.fceStep (s : State) : Host.Outcome State Fault Refusal :=
  match s.fce.issues with
  | some i => exec i s
  | none => if s.fce.state = .complete then .next s.completeCapture else .next s

/-- The one unit that steps (R35): the CBW if not IDLE, else the CFG, else the FCE. An idle block waits for a host word and
nothing changes (R267, assumption 17). -/
def State.unitStep (s : State) : Host.Outcome State Fault Refusal :=
  if s.cbw.state ≠ .idle then s.cbwStep
  else if s.cfg.state ≠ .idle then s.cfgStep
  else s.fceStep

/-- The operation a word presented on CMD starts, if the block accepts it (R38, R230): BUSY = 0, and the word encodes a host
operation with legal operands. -/
def State.accepted (s : State) (w : OpWord) : Option Instr :=
  if s.busy then none
  else
    match decode? w with
    | some i => if i.isHost then some i else none
    | none => none

/-- A step at which the host presents `w` (R230). A refused word does nothing and is not kept: the step is the one the block
takes without it (assumption 8). -/
def State.wordStep (s : State) (w : OpWord) : Host.Outcome State Fault Refusal :=
  match s.accepted w with
  | some i => exec i s
  | none => s.unitStep

/-- A step that runs one internal word by itself (assumption 6). -/
def State.issueStep (s : State) (w : OpWord) : Host.Outcome State Fault Refusal :=
  match decode? w with
  | some i => exec i s
  | none => .refused (.reservedWord w)

/-- One step of the machine: the issued word if there is one, else the platform's move, the host's, and the unit that steps. A
reset ends a capture, so that the platform's move of that step lands (R281, U21). -/
def State.machineStep (s : State) : Host.Outcome State Fault Refusal :=
  match s.env.issue with
  | some w => s.clearIssue.issueStep w
  | none =>
    match s.env.host.head? with
    | none | some .quiet => s.nextMoves.unitStep
    | some (.word w) => s.nextMoves.wordStep w
    | some .reset => .next s.applyReset.nextMoves

/-- The three sequencers IDLE, so that BUSY = 0 and a word on CMD is looked at. -/
def State.settleIdle (s : State) : State :=
  { s with
    fce := { s.fce with state := .idle }
    cbw := { s.cbw with state := .idle }
    cfg := { s.cfg with state := .idle } }

/-- Place a word where the next step takes its operation from (assumption 24): a host word on CMD of an idle block, any other
word in `env.issue`, where an internal operation runs by itself. -/
def State.placeWord (s : State) (w : OpWord) : State :=
  if (w.extractLsb' 20 4 : BitVec 4) = OpClass.code .host then
    { s.settleIdle with env := { s.env with host := .word w :: s.env.host, issue := none } }
  else { s with env := { s.env with issue := some w } }

end Sys2Proof.Machine
end

