-- ==== Sys2Proof/Machine/Step.lean ====
section
/-! DEFINITION. One step of the machine. -/

namespace Sys2Proof.Machine

/-- One step (R10, R35). -/
def step (s : State) : Host.Outcome State Fault Refusal := s.machineStep

/-- `s` with a table word placed where `step` takes its next operation from (assumption 24). -/
def State.withFetchWord (s : State) (nbits w : Nat) : State :=
  s.placeWord (BitVec.ofNat 24 (w % 2 ^ nbits))

end Sys2Proof.Machine
end

