-- ==== Sys2Proof/Safety.lean ====
section
/-! DEFINITION. Runs, what a write puts on the wire, the invariants of the block, a failing configuration, and the sensor traces
that the claims speak of. -/

namespace Sys2Proof.Machine

/-- `n` steps, stopping at a fault or a refusal. -/
def run : Nat → State → Host.Outcome State Fault Refusal
  | 0, s => .next s
  | n + 1, s =>
    match step s with
    | .next t => run n t
    | .fault r => .fault r
    | .refused r => .refused r

/-- No reset comes and no internal word is issued by itself. The host may present words: while BUSY = 1 they are refused. -/
def State.undisturbed (s : State) : Prop := s.env.issue = none ∧ ∀ e ∈ s.env.host, e ≠ .reset

/-! ### A write on the wire -/

/-- The primitive that each step of a write belongs to (R155): START for two steps, TXBYTE for 28 steps a byte, STOP for
three. -/
def writePrimitives (bytes : List Byte) : List Instr :=
  List.replicate 2 .start ++ bytes.flatMap (fun b => List.replicate 28 (.txbyte b)) ++ List.replicate 3 .stop

/-- SCL and SDA_M after each step of TXBYTE b (R93, R152): each bit, from bit 7 down, with one SCL pulse, then the released
line and the ninth pulse. -/
def bytePins (b : Byte) : List (Bool × Bool) :=
  [7, 6, 5, 4, 3, 2, 1, 0].flatMap (fun k => [(false, b.getLsbD k), (true, b.getLsbD k), (false, b.getLsbD k)]) ++
    [(false, true), (true, true), (true, true), (false, true)]

/-- SCL and SDA_M after each step of a write from the idle bus (R93): the start condition, the bytes, the stop condition. -/
def writePins (bytes : List Byte) : List (Bool × Bool) :=
  [(true, false), (false, false)] ++ bytes.flatMap bytePins ++ [(false, false), (true, false), (true, true)]

/-- The write that `s` begins sends exactly `bytes` (R93, R155): each of its steps belongs to the primitive listed, and from
the idle bus each leaves the pins as listed. -/
def State.sends (s : State) (bytes : List Byte) : Prop :=
  (∀ n i, (writePrimitives bytes)[n]? = some i → ∃ t, run n s = .next t ∧ t.cbw.issues = some i) ∧
    (s.cbw.scl = true → s.cbw.sdaM = true → ∀ n p, (writePins bytes)[n]? = some p →
      ∃ t, run (n + 1) s = .next t ∧ (t.cbw.scl, t.cbw.sdaM) = p)

/-! ### Invariants -/

/-- The cursor where the engine looks for edges: R28 (a), and `pulse` is 0 while pixels are read. -/
def FceRegs.pixelInv (f : FceRegs) : Prop :=
  f.byteIndex.toNat = 2 * (f.line.toNat * 160 + f.column.toNat) + min f.edge.toNat 2 ∧
    f.line.toNat ≤ 119 ∧ f.column.toNat ≤ 159 ∧ f.pulse = false

/-- The cursor during a capture: R28 (a) to (e). -/
def FceRegs.cursorInv (f : FceRegs) : Prop :=
  match f.state with
  | .idle => True
  | .vsWhileLow | .vsWhileHigh => f.line = 0 ∧ f.byteIndex = 0
  | .hsWhileLow | .hsWhileHigh => f.byteIndex.toNat = 320 * f.line.toNat ∧ f.line.toNat ≤ 119
  | .pkWhileHigh | .pkWhileLow => f.pixelInv
  | .sample => f.pixelInv ∧ f.edge.toNat < 2
  | .complete => f.line = 120 ∧ f.column = 160 ∧ f.byteIndex = 38400 ∧ f.edge = 0 ∧ f.pulse = false

/-- The levels of the two bus pins in each state of the writer (R144 to R150, R157): idle means both 1. -/
def CbwRegs.pinsInv (c : CbwRegs) : Prop :=
  match c.state with
  | .idle | .s1 | .a3 | .a4 => c.scl = true ∧ c.sdaM = true
  | .s2 | .p3 => c.scl = true ∧ c.sdaM = false
  | .b1 | .b2 | .a1 => c.scl = false
  | .b3 => c.scl = true
  | .a2 | .p1 => c.scl = false ∧ c.sdaM = true
  | .p2 => c.scl = false ∧ c.sdaM = false

/-- What the writer is sending (R143, R145, R149): a write begins with byte 0, and while a byte is sent `bytesel` is 0, 1 or 2
and `sh` is that byte. -/
def State.byteInv (s : State) : Prop :=
  (s.cbw.state = .s1 ∨ s.cbw.state = .s2 → s.cbw.bytesel = 0 ∧ s.cbw.ok = true) ∧
    (s.cbw.state.inTxbyte = true → s.cbw.bytesel.toNat ≤ 2 ∧ s.cbw.sh = s.busByte s.cbw.bytesel)

/-- One unit at a time (R35): the writer runs for the host or for the configurator's WRITE, the engine alone. -/
def State.unitsInv (s : State) : Prop :=
  (s.cfg.state ≠ .idle → s.fce.state = .idle) ∧
    (s.cbw.state ≠ .idle → s.fce.state = .idle ∧ (s.cfg.state = .idle ∨ s.cfg.state = .write))

/-- The configurator's position (R33, R121 to R124): `idx` within the table, the settle counter within its delay, and no
result flag while it runs. -/
def State.configInv (s : State) : Prop :=
  s.params.wf ∧ (s.flags.cfgOk = true → s.flags.cfgErr = false) ∧
    match s.cfg.state with
    | .idle => True
    | .fetch => s.cfg.idx.toNat ≤ s.params.tableLen ∧ s.flags.cfgOk = false ∧ s.flags.cfgErr = false
    | .write => s.cfg.idx.toNat < s.params.tableLen ∧ s.flags.cfgOk = false ∧ s.flags.cfgErr = false
    | .settle => s.cfg.idx.toNat < s.params.tableLen ∧ s.flags.cfgOk = false ∧ s.flags.cfgErr = false ∧
        1 ≤ s.cfg.settleCnt ∧ s.cfg.settleCnt ≤ s.params.settleTicks

/-- The flags of a capture (R36, R181, R190): IRQ_MASKED is 1 exactly while the engine runs, the platform's interrupts are
all masked then, and FRAME_DONE is 0. -/
def State.captureInv (s : State) : Prop :=
  match s.fce.state with
  | .idle => s.flags.irqMasked = false
  | .vsWhileLow | .vsWhileHigh | .hsWhileLow | .hsWhileHigh | .pkWhileHigh | .pkWhileLow | .sample | .complete =>
    s.flags.irqMasked = true ∧ s.irqMask = .allMasked ∧ s.flags.frameDone = false

/-- Both memories are in canonical form and lie in their address spaces (R60). -/
def State.memoryInv (s : State) : Prop :=
  Memory.wf s.fb ∧ Memory.within s.fb fbLen ∧ Memory.wf s.sensor ∧ Memory.within s.sensor 256

/-- Everything that holds in every state of the hardware. -/
structure State.Inv (s : State) : Prop where
  noIssue : s.env.issue = none
  cursor : s.fce.cursorInv
  pins : s.cbw.pinsInv
  byte : s.byteInv
  units : s.unitsInv
  config : s.configInv
  capture : s.captureInv
  memory : s.memoryInv

/-! ### A failing configuration -/

/-- A CONFIGURE begun in `s` ends with `BusFailure(k)` on the idle bus after `n` steps and `d` acknowledge draws (R125, R258,
R259); the frame buffer and the engine are as before. -/
def State.configureFails (s : State) (k n d : Nat) : Prop :=
  ∃ t, run n s.startConfigure = .next t ∧ t.busy = false ∧ t.busFailure? = some (BitVec.ofNat 16 k) ∧
    t.flags.cfgOk = false ∧ t.cbw.pinsInv ∧ (∀ j, t.env.sdaAt j = s.env.sdaAt (j + d)) ∧ t.fb = s.fb ∧ t.fce = s.fce

/-! ### Sensor traces -/

/-- One pulse of a line as the engine consumes it (R105, R205): low for zero or more ticks, high for one or more, then the
first low tick. -/
def PulseTrace (pin : Pin) (xs : List Snapshot) : Prop :=
  ∃ low high x, xs = low ++ high ++ [x] ∧ high ≠ [] ∧ (∀ y ∈ low, y.pin pin = false) ∧
    (∀ y ∈ high, y.pin pin = true) ∧ x.pin pin = false

/-- One PCLK edge (R105, R205): high for zero or more ticks, low for one or more, then the first high tick. -/
def EdgeTrace (xs : List Snapshot) : Prop :=
  ∃ high low x, xs = high ++ low ++ [x] ∧ low ≠ [] ∧ (∀ y ∈ high, y.pclk = true) ∧
    (∀ y ∈ low, y.pclk = false) ∧ x.pclk = true

/-- One pixel (R105, R205): four edges, the data lines showing `b0` at the tick after the first and `b1` at the tick after the
second. -/
def PixelTrace (b0 b1 : Byte) (xs : List Snapshot) : Prop :=
  ∃ e0 x0 e1 x1 e2 e3, xs = e0 ++ [x0] ++ (e1 ++ [x1]) ++ e2 ++ e3 ∧ EdgeTrace e0 ∧ x0.pix8 = b0 ∧
    EdgeTrace e1 ∧ x1.pix8 = b1 ∧ EdgeTrace e2 ∧ EdgeTrace e3

/-- One line (R105, R205): two HSYNC pulses, then 160 pixels that carry the bytes of `P` for line `row`. -/
def LineTrace (P : Nat → Byte) (row : Nat) (xs : List Snapshot) : Prop :=
  ∃ p1 p2 pixels, xs = p1 ++ p2 ++ List.flatten pixels ∧ PulseTrace .hsync p1 ∧ PulseTrace .hsync p2 ∧
    pixels.length = 160 ∧
    ∀ col px, pixels[col]? = some px → PixelTrace (P (rasterAddress row col)) (P (rasterAddress row col + 1)) px

/-- One frame (R105, R205): one VSYNC pulse, then 120 lines. -/
def FrameTrace (P : Nat → Byte) (xs : List Snapshot) : Prop :=
  ∃ v lines, xs = v ++ List.flatten lines ∧ PulseTrace .vsync v ∧ lines.length = 120 ∧
    ∀ row ln, lines[row]? = some ln → LineTrace P row ln

end Sys2Proof.Machine
end

