-- ==== Sys2Proof/Certificates/Slice0/Obligations.lean ====
section
/-! DEFINITION. The statements for the provers, made from the numbered rules of spec/. A statement about every state also holds
in states that no run reaches; where it needs one ruled out, an invariant is a premise and has a statement of its own.

Where an operation other than GET_FRAME leaves everything else as it was, or its next state is given whole, RDATA keeps its byte:
that is the model's choice (assumption 26), and each such docstring names it. -/

open Sys2Proof Sys2Proof.Machine

/-! ### Encoding -/

/-- R90 to R92, R107: no bit of an encoding is dropped. -/
def Obligations.DecodeOfEncodeIsTheInstruction : Prop :=
  ∀ i : Instr, i.wellFormed = true → decode (encode i) = .ok i

/-- R91, R101, R107: each legal word has one spelling, and the operands it decodes to are legal. -/
def Obligations.EncodeOfDecodeIsTheWord : Prop :=
  ∀ (w : OpWord) (i : Instr), decode w = .ok i → encode i = w ∧ i.wellFormed = true

/-- R107: a word decodes exactly when a row of the table selects it, to that row's operation; no word selects two rows. -/
def Obligations.TableRowsSelectTheDecodedWords : Prop :=
  ∀ w : OpWord,
    (∀ r ∈ opTable, ∀ r' ∈ opTable, r.selects w = true → r'.selects w = true → r = r') ∧
    (∀ i, decode w = .ok i → ∃ r ∈ opTable, r.selects w = true ∧ r.mnemonic = i.mnemonic) ∧
    (∀ r ∈ opTable, r.selects w = true → ∃ i, decode w = .ok i ∧ i.mnemonic = r.mnemonic)

/-- Words of 95_test_vectors.md V1, one of each operation and the reserved neighbours. -/
def Obligations.WordsOfTheVectorsDecode : Prop :=
  decode 0x010000 = .ok .initialise ∧ decode 0x020000 = .ok .capture ∧ decode 0x03013E = .ok (.getFrame 318) ∧
  decode 0x0395FF = .ok (.getFrame 38399) ∧ decode 0x040000 = .ok .configure ∧
  decode 0x051280 = .ok (.writeRegister 0x12 0x80) ∧ decode 0x100000 = .ok .start ∧ decode 0x110000 = .ok .stop ∧
  decode 0x1200A5 = .ok (.txbyte 0xA5) ∧ decode 0x200100 = .ok (.waitw .hsync false) ∧
  decode 0x200201 = .ok (.waitw .pclk true) ∧ decode 0x210000 = .ok .sample ∧ decode 0x220000 = .ok .irqMask ∧
  decode 0x230000 = .ok .irqRestore ∧ decode 0x240000 = .ok .delay ∧
  decode 0x000000 = .error .reservedOpcode ∧ decode 0x010001 = .error .operandNotZero ∧
  decode 0x039600 = .error .indexTooLarge ∧ decode 0x120100 = .error .operandNotZero ∧
  decode 0x200300 = .error .noSuchPin ∧ decode 0x200002 = .error .noSuchLevel ∧
  decode 0x250000 = .error .reservedOpcode

/-! ### A step runs the decoded operation

`nextMoves` takes the host's and the platform's moves of the step from their schedules (assumptions 1, 13). -/

/-- R38, R230: a host word presented while BUSY = 0 is the operation the step runs; the host's and the
platform's moves are taken from their schedules and nothing else is put around the meaning. -/
def Obligations.StepRunsTheAcceptedWord : Prop :=
  ∀ (s : State) (w : OpWord) (rest : List HostEvent) (i : Instr),
    s.env.issue = none → s.env.host = .word w :: rest → s.busy = false → decode w = .ok i → i.isHost = true →
      step s = exec i s.nextMoves

/-- R24, R30, R34, R35: the operation that the running unit's sequencer issues is the one the step runs. -/
def Obligations.StepRunsTheIssuedOperation : Prop :=
  ∀ (s : State) (i : Instr), s.undisturbed →
    (s.cbw.issues = some i ∨
      (s.cbw.state = .idle ∧ s.cfg.state = .settle ∧ i = .delay) ∨
      (s.cbw.state = .idle ∧ s.cfg.state = .idle ∧ s.fce.issues = some i)) →
    s.busy = true → step s = exec i s.nextMoves

/-- The model's own placing of a word (assumptions 6, 24): the very next step runs exactly the instruction whose encoding was
placed, a host operation in the idle block, an internal one as it stands. -/
def Obligations.PlacedWordIsRunNext : Prop :=
  ∀ (s : State) (i : Instr), i.wellFormed = true →
    (i.isHost = true →
      step (s.withFetchWord 24 (encode i).toNat) = exec i { s.settleIdle with
        irqMask := s.platformMask
        env := { s.env with platform := s.env.platform.tail, issue := none } }) ∧
    (i.isHost = false → step (s.withFetchWord 24 (encode i).toNat) = exec i s.clearIssue)

/-- R101, R230: a word presented while BUSY = 1, and at any time a word that names no host operation, is refused. Nothing
changes and nothing is kept: the step is the one the block takes without the word (assumption 8); an idle block stays as it
is but for the host's and the platform's moves, so BUSY stays 0. -/
def Obligations.RefusedWordChangesNothing : Prop :=
  ∀ (s : State) (w : OpWord) (rest : List HostEvent), s.env.issue = none → s.env.host = .word w :: rest →
    (s.busy = true ∨ ∀ i, decode w = .ok i → i.isHost = false) →
      step s = step { s with env := { s.env with host := .quiet :: rest } } ∧
      (s.busy = false → step s = .next s.nextMoves ∧ s.nextMoves.busy = false)

/-- R10, R230: the five host operations, in every form, are not accepted while BUSY = 1. -/
def Obligations.HostOperationsAreRefusedWhileBusy : Prop :=
  ∀ (s : State) (i : Instr), s.busy = true → i.isHost = true → exec i s = .refused .busy

/-! ### Reset and STATUS -/

/-- R42: the values after reset that the spec gives; that an unspecified frame-buffer byte is a free byte of its address is
assumption 5. -/
def Obligations.ResetLeavesTheStatedValues : Prop :=
  State.reset.fce.state = .idle ∧ State.reset.cbw.state = .idle ∧ State.reset.cfg.state = .idle ∧
  State.reset.cbw.scl = true ∧ State.reset.cbw.sdaM = true ∧
  State.reset.flags.frameDone = false ∧ State.reset.flags.cfgOk = false ∧ State.reset.flags.cfgErr = false ∧
  State.reset.flags.wrOk = false ∧ State.reset.flags.irqMasked = false ∧ State.reset.cfg.errIndex = 0 ∧
  State.reset.status = 0 ∧ ∀ a, State.reset.readFrame a = Config.freeByte a

/-- R280, R281: in any state, the sequencers IDLE, both bus lines 1, flags and ERR_INDEX 0, the frame buffer as it was. The
reset does not touch the platform's interrupt mask, which keeps its value unless the platform changes it in that very step,
even where the reset ended a capture. That the reset and the platform's moves come from schedules is assumptions 13 and 16. -/
def Obligations.ResetEventKeepsTheFrameBuffer : Prop :=
  ∀ (s : State) (rest : List HostEvent), s.env.issue = none → s.env.host = .reset :: rest →
    ∃ t, step s = .next t ∧ t.fce.state = .idle ∧ t.cbw.state = .idle ∧ t.cfg.state = .idle ∧
      t.cbw.scl = true ∧ t.cbw.sdaM = true ∧ t.status = 0 ∧ t.cfg.errIndex = 0 ∧
      t.flags = { frameDone := false, cfgOk := false, cfgErr := false, wrOk := false, irqMasked := false } ∧
      t.fb = s.fb ∧ t.params = s.params ∧
      (∀ m, s.env.platform.head? = some (.setMask m) → t.irqMask = m) ∧
      ((∀ m, s.env.platform.head? ≠ some (.setMask m)) → t.irqMask = s.irqMask)

/-- R37, with the flags of R36: the STATUS word bit by bit, in every state, busy or not, and 0 after reset. -/
def Obligations.StatusWordLayout : Prop :=
  ∀ s : State,
    (s.status.getLsbD 0 = true ↔ s.fce.state ≠ .idle ∨ s.cfg.state ≠ .idle ∨ s.cbw.state ≠ .idle) ∧
    s.status.getLsbD 1 = s.flags.frameDone ∧ s.status.getLsbD 2 = s.flags.cfgOk ∧
    s.status.getLsbD 3 = s.flags.cfgErr ∧ s.status.getLsbD 4 = s.flags.wrOk ∧
    s.status.getLsbD 5 = s.flags.irqMasked ∧ s.status.extractLsb' 6 10 = (0 : BitVec 10) ∧
    s.status.extractLsb' 16 16 = s.cfg.errIndex ∧ State.reset.status = 0

/-! ### Host operations -/

/-- R120 (acceptance), R231: CONFIGURE, and INITIALIZE with exactly its effect, start at entry 0 with both result flags cleared
and change nothing else. That RDATA keeps its byte is the model's choice (assumption 26). -/
def Obligations.ConfigureAndInitializeStart : Prop :=
  ∀ (s : State) (i : Instr), (i = .configure ∨ i = .initialise) → s.busy = false →
    exec i s = .next { s with
      cfg := { s.cfg with idx := 0, state := .fetch }
      flags := { s.flags with cfgOk := false, cfgErr := false } }

/-- R181: accepting CAPTURE; the frame buffer, the inputs and every other register are as before. That RDATA keeps its byte is
the model's choice (assumption 26). -/
def Obligations.CaptureStarts : Prop :=
  ∀ s : State, s.busy = false →
    exec .capture s = .next { s with
      fce := { state := .vsWhileLow, line := 0, column := 0, byteIndex := 0, edge := 0, pulse := false,
               irqSaved := s.irqMask }
      irqMask := .allMasked
      flags := { s.flags with irqMasked := true, frameDone := false } }

/-- R234: GET_FRAME puts the addressed byte in RDATA and changes nothing else; the byte is the one stored there last, or the
free byte of an address nothing has written (assumption 5); an index above 38399 is refused (R101). -/
def Obligations.GetFrameReadsOneByte : Prop :=
  ∀ (s : State) (index : BitVec 16), s.busy = false →
    (index.toNat ≤ 38399 → ∃ t, exec (.getFrame index) s = .next t ∧ t = { s with rdata := t.rdata } ∧
      (∀ b, Memory.read? s.fb index.toNat = some b → t.rdata = b) ∧
      (Memory.read? s.fb index.toNat = none → t.rdata = Config.freeByte index.toNat)) ∧
    (38399 < index.toNat → exec (.getFrame index) s = .refused .reservedOperand)

/-- R69, R234: reading has no side effect and may be repeated: the second read of an address gives the same byte. -/
def Obligations.GetFrameIsRepeatable : Prop :=
  ∀ (s t : State) (index : BitVec 16), exec (.getFrame index) s = .next t → exec (.getFrame index) t = .next t

/-- R143: the start of a write, here by the host; it changes no pin. That RDATA keeps its byte is the model's choice (assumption
26). -/
def Obligations.WriteRegisterStarts : Prop :=
  ∀ (s : State) (address value : Byte), s.busy = false →
    exec (.writeRegister address value) s = .next { s with
      cbw := { s.cbw with wrAddr := address, wrVal := value, ok := true, bytesel := 0, state := .s1 } }

/-! ### The control bus -/

/-- R144, R145: the two steps of START; nothing else changes. That RDATA keeps its byte is the model's choice (assumption 26).
-/
def Obligations.StartSteps : Prop :=
  ∀ s : State,
    (s.cbw.state = .s1 → exec .start s = .next { s with cbw := { s.cbw with sdaM := false, state := .s2 } }) ∧
    (s.cbw.state = .s2 → exec .start s = .next { s with
      cbw := { s.cbw with scl := false, sh := s.params.devAddr, bitcnt := 7, state := .b1 } })

/-- R146, R147: the data-bit steps of TXBYTE while it sends its byte; nothing else changes. That RDATA keeps its byte is the
model's choice (assumption 26). -/
def Obligations.TxbyteDataSteps : Prop :=
  ∀ s : State,
    (s.cbw.state = .b1 → exec (.txbyte s.cbw.sh) s = .next { s with
      cbw := { s.cbw with sdaM := s.cbw.sh.getLsbD s.cbw.bitcnt.toNat, state := .b2 } }) ∧
    (s.cbw.state = .b2 → exec (.txbyte s.cbw.sh) s = .next { s with cbw := { s.cbw with scl := true, state := .b3 } }) ∧
    (s.cbw.state = .b3 → 0 < s.cbw.bitcnt.toNat → exec (.txbyte s.cbw.sh) s = .next { s with
      cbw := { s.cbw with scl := false, bitcnt := s.cbw.bitcnt - 1, state := .b1 } }) ∧
    (s.cbw.state = .b3 → s.cbw.bitcnt = 0 → exec (.txbyte s.cbw.sh) s = .next { s with
      cbw := { s.cbw with scl := false, state := .a1 } })

/-- R148, R149: the acknowledge steps of TXBYTE. A3 takes the sensor's draw of this byte and reads the line, which is the AND of
SDA_M and that draw (R32). That RDATA keeps its byte is the model's choice (assumption 26). -/
def Obligations.TxbyteAcknowledgeSteps : Prop :=
  ∀ s : State,
    (s.cbw.state = .a1 → exec (.txbyte s.cbw.sh) s = .next { s with cbw := { s.cbw with sdaM := true, state := .a2 } }) ∧
    (s.cbw.state = .a2 → exec (.txbyte s.cbw.sh) s = .next { s with cbw := { s.cbw with scl := true, state := .a3 } }) ∧
    (s.cbw.state = .a3 → ∃ t, exec (.txbyte s.cbw.sh) s = .next t ∧
      t = { s with
        cbw := { s.cbw with
          ack := decide ((s.cbw.sdaM && s.env.sdaAt 0) = false)
          ok := s.cbw.ok && decide ((s.cbw.sdaM && s.env.sdaAt 0) = false)
          state := .a4 }
        env := t.env } ∧
      (∀ k, t.env.sdaAt k = s.env.sdaAt (k + 1)) ∧ (∀ k, t.env.snapshotAt k = s.env.snapshotAt k) ∧
      t.env.host = s.env.host ∧ t.env.platform = s.env.platform ∧ t.env.issue = s.env.issue) ∧
    (s.cbw.state = .a4 → (s.cbw.bytesel = 2 ∨ (s.params.abortOnNack = true ∧ s.cbw.ok = false)) →
      exec (.txbyte s.cbw.sh) s = .next { s with cbw := { s.cbw with scl := false, state := .p1 } }) ∧
    (s.cbw.state = .a4 → ¬ (s.params.abortOnNack = true ∧ s.cbw.ok = false) → s.cbw.bytesel = 0 →
      exec (.txbyte s.cbw.sh) s = .next { s with
        cbw := { s.cbw with scl := false, bytesel := 1, sh := s.cbw.wrAddr, bitcnt := 7, state := .b1 } }) ∧
    (s.cbw.state = .a4 → ¬ (s.params.abortOnNack = true ∧ s.cbw.ok = false) → s.cbw.bytesel = 1 →
      exec (.txbyte s.cbw.sh) s = .next { s with
        cbw := { s.cbw with scl := false, bytesel := 2, sh := s.cbw.wrVal, bitcnt := 7, state := .b1 } })

/-- R150: the three steps of STOP; the last publishes the write's result. What is known of the sensor is another statement. That
RDATA keeps its byte is the model's choice (assumption 26). -/
def Obligations.StopSteps : Prop :=
  ∀ s : State,
    (s.cbw.state = .p1 → exec .stop s = .next { s with cbw := { s.cbw with sdaM := false, state := .p2 } }) ∧
    (s.cbw.state = .p2 → exec .stop s = .next { s with cbw := { s.cbw with scl := true, state := .p3 } }) ∧
    (s.cbw.state = .p3 → ∃ t, exec .stop s = .next t ∧ t = { s with
      cbw := { s.cbw with sdaM := true, state := .idle }
      flags := { s.flags with wrOk := s.cbw.ok }
      sensor := t.sensor })

/-- R41, R127, U6 (assumption 12, the model's own record of the sensor): when a write ends with its three bytes acknowledged
the sensor's register holds the value; when it ends otherwise nothing is known of that register; every other register is as
before. -/
def Obligations.SensorRecordAfterAWrite : Prop :=
  ∀ s : State, s.cbw.state = .p3 → ∃ t, exec .stop s = .next t ∧
    (s.cbw.ok = true → s.cbw.bytesel = 2 → Memory.read? t.sensor s.cbw.wrAddr.toNat = some s.cbw.wrVal) ∧
    (s.cbw.ok = false → Memory.read? t.sensor s.cbw.wrAddr.toNat = none) ∧
    ∀ a, a ≠ s.cbw.wrAddr.toNat → Memory.read? t.sensor a = Memory.read? s.sensor a

/-- The model's choice for an internal operation that is issued from a state outside it, as only `env.issue` can do (assumption
7): it begins at its first step. An `idx` of 65535 is followed by 0 there (assumption 21). That RDATA keeps its byte is the
model's choice (assumption 26). -/
def Obligations.OutOfPlaceOperationsBeginAtTheFirstStep : Prop :=
  ∀ s : State,
    (s.cbw.state ≠ .s2 → exec .start s = .next { s with cbw := { s.cbw with sdaM := false, state := .s2 } }) ∧
    (∀ b : Byte, (s.cbw.state.inTxbyte = false ∨ s.cbw.sh ≠ b) → exec (.txbyte b) s = .next { s with
      cbw := { s.cbw with sh := b, bitcnt := 7, sdaM := b.getLsbD 7, state := .b2 } }) ∧
    (s.cbw.state ≠ .p2 → s.cbw.state ≠ .p3 →
      exec .stop s = .next { s with cbw := { s.cbw with sdaM := false, state := .p2 } }) ∧
    (s.cfg.state ≠ .settle → 1 < s.params.settleTicks → exec .delay s = .next { s with
      cfg := { s.cfg with settleCnt := s.params.settleTicks - 1, state := .settle } }) ∧
    (s.cfg.state ≠ .settle → s.params.settleTicks = 1 → exec .delay s = .next { s with
      cfg := { s.cfg with settleCnt := 0, idx := s.cfg.idx + 1, state := .fetch } }) ∧
    (∀ pin level, (s.env.snapshotAt 0).pin pin = level → exec (.waitw pin level) s =
      .next { s with fce := { s.fce with state := waitState pin level } }.nextTick)

/-- R151, R153: the pins of START go (1,1), (1,0), (0,0) and the first byte of the write is loaded; those of STOP go (0,1),
(0,0), (1,0), (1,1) and the writer is IDLE with its result published. -/
def Obligations.StartAndStopWaveforms : Prop :=
  ∀ s : State, s.undisturbed →
    (s.cbw.state = .s1 → s.cbw.scl = true → s.cbw.sdaM = true →
      (∃ t, run 1 s = .next t ∧ t.cbw.scl = true ∧ t.cbw.sdaM = false) ∧
      (∃ t, run 2 s = .next t ∧ t.cbw.scl = false ∧ t.cbw.sdaM = false ∧ t.cbw.state = .b1 ∧
        t.cbw.sh = s.params.devAddr ∧ t.cbw.bitcnt = 7)) ∧
    (s.cbw.state = .p1 → s.cbw.scl = false → s.cbw.sdaM = true →
      (∃ t, run 1 s = .next t ∧ t.cbw.scl = false ∧ t.cbw.sdaM = false) ∧
      (∃ t, run 2 s = .next t ∧ t.cbw.scl = true ∧ t.cbw.sdaM = false) ∧
      (∃ t, run 3 s = .next t ∧ t.cbw.scl = true ∧ t.cbw.sdaM = true ∧ t.cbw.state = .idle ∧
        t.flags.wrOk = s.cbw.ok))

/-- R152: TXBYTE is 28 steps: bit 7 first, each bit on SDA_M for three steps with one SCL pulse in the middle one, then the
released line and the ninth pulse; `ack` is 1 when the sensor pulls the line low. -/
def Obligations.TxbyteWaveform : Prop :=
  ∀ s : State, s.undisturbed → s.cbw.state = .b1 → s.cbw.bitcnt = 7 → s.cbw.scl = false →
    (∀ k r : Nat, k < 8 → r < 3 → ∃ t, run (3 * k + r + 1) s = .next t ∧
      t.cbw.sdaM = s.cbw.sh.getLsbD (7 - k) ∧ (t.cbw.scl = true ↔ r = 1)) ∧
    (∀ r : Nat, r < 4 → ∃ t, run (24 + r + 1) s = .next t ∧
      t.cbw.sdaM = true ∧ (t.cbw.scl = true ↔ r = 1 ∨ r = 2)) ∧
    (∃ t, run 28 s = .next t ∧ (t.cbw.state = .b1 ∨ t.cbw.state = .p1) ∧ (t.cbw.ack = true ↔ s.env.sdaAt 0 = false) ∧
      (t.cbw.ok = true ↔ s.cbw.ok = true ∧ s.env.sdaAt 0 = false) ∧ ∀ k, t.env.sdaAt k = s.env.sdaAt (k + 1))

/-- R93, R142, R154, R155: with SCCB_ABORT_ON_NACK = false a started write takes exactly 89 steps whatever the acknowledges:
one START first, TXBYTE of DEV_ADDR_BYTE, the register address and the value in that order, one STOP last, with the pins of
these at every step. It ends on the idle bus, and WR_OK is 1 if and only if every byte was acknowledged. -/
def Obligations.WriteTakes89Steps : Prop :=
  ∀ (s : State) (address value : Byte), s.undisturbed → s.params.abortOnNack = false →
    (∀ n, n < 89 → ∃ t, run n (s.startWrite address value) = .next t ∧ t.cbw.state ≠ .idle) ∧
    (s.startWrite address value).sends [s.params.devAddr, address, value] ∧
    ∃ t, run 89 (s.startWrite address value) = .next t ∧ t.cbw.state = .idle ∧ t.cbw.scl = true ∧ t.cbw.sdaM = true ∧
      (t.flags.wrOk = true ↔ s.env.sdaAt 0 = false ∧ s.env.sdaAt 1 = false ∧ s.env.sdaAt 2 = false) ∧
      (∀ k, t.env.sdaAt k = s.env.sdaAt (k + 3)) ∧ t.fce = s.fce ∧ t.cfg = s.cfg ∧ t.fb = s.fb ∧ t.params = s.params

/-- R93, R149, R154, R155: with SCCB_ABORT_ON_NACK = true a write ends after 33 steps when the device address byte is not
acknowledged, after 61 when the register address is not, and fails; otherwise it takes 89. It sends one, two or all three of its
bytes, between one START and one STOP, and takes one draw a byte sent. -/
def Obligations.WriteIsCutShortByAMissingAcknowledge : Prop :=
  ∀ (s : State) (address value : Byte), s.undisturbed → s.params.abortOnNack = true →
    (s.env.sdaAt 0 = true →
      (s.startWrite address value).sends [s.params.devAddr] ∧
      ∃ t, run 33 (s.startWrite address value) = .next t ∧ t.cbw.state = .idle ∧ t.flags.wrOk = false ∧ t.cbw.scl = true ∧
        t.cbw.sdaM = true ∧ ∀ k, t.env.sdaAt k = s.env.sdaAt (k + 1)) ∧
    (s.env.sdaAt 0 = false → s.env.sdaAt 1 = true →
      (s.startWrite address value).sends [s.params.devAddr, address] ∧
      ∃ t, run 61 (s.startWrite address value) = .next t ∧ t.cbw.state = .idle ∧ t.flags.wrOk = false ∧ t.cbw.scl = true ∧
        t.cbw.sdaM = true ∧ ∀ k, t.env.sdaAt k = s.env.sdaAt (k + 2)) ∧
    (s.env.sdaAt 0 = false → s.env.sdaAt 1 = false →
      (s.startWrite address value).sends [s.params.devAddr, address, value] ∧
      ∃ t, run 89 (s.startWrite address value) = .next t ∧ t.cbw.state = .idle ∧ t.flags.wrOk = !s.env.sdaAt 2 ∧
        t.cbw.scl = true ∧ t.cbw.sdaM = true ∧ ∀ k, t.env.sdaAt k = s.env.sdaAt (k + 3))

/-- R156: while no reset comes, SDA_M changes with SCL at 1 only in steps S1 and P3. -/
def Obligations.DataLineChangesOnlyAtStartAndStopWhileClockHigh : Prop :=
  ∀ s t : State, s.undisturbed → s.cbw.pinsInv → step s = .next t → t.cbw.sdaM ≠ s.cbw.sdaM → s.cbw.scl = true →
    s.cbw.state = .s1 ∨ s.cbw.state = .p3

/-- R31, R32: which steps write the two pins, when no reset comes. -/
def Obligations.PinsAreWrittenOnlyByTheirSteps : Prop :=
  ∀ s t : State, s.undisturbed → step s = .next t →
    (t.cbw.scl ≠ s.cbw.scl → s.cbw.state = .s2 ∨ s.cbw.state = .b2 ∨ s.cbw.state = .b3 ∨ s.cbw.state = .a2 ∨
      s.cbw.state = .a4 ∨ s.cbw.state = .p2) ∧
    (t.cbw.sdaM ≠ s.cbw.sdaM → s.cbw.state = .s1 ∨ s.cbw.state = .b1 ∨ s.cbw.state = .a1 ∨ s.cbw.state = .p1 ∨
      s.cbw.state = .p3)

/-! ### The capture engine's operations -/

/-- R182: a poll that reads the level stays in the same wait; the tick is consumed and nothing else changes. That RDATA keeps
its byte is the model's choice (assumption 26). -/
def Obligations.WaitStaysWhileThePinReadsTheLevel : Prop :=
  ∀ (s : State) (pin : Pin) (level : Bool), s.fce.state = waitState pin level → (s.env.snapshotAt 0).pin pin = level →
    ∃ t, exec (.waitw pin level) s = .next t ∧ t = { s with env := t.env } ∧
      (∀ k, t.env.snapshotAt k = s.env.snapshotAt (k + 1)) ∧ (∀ k, t.env.sdaAt k = s.env.sdaAt k) ∧
      t.env.host = s.env.host ∧ t.env.platform = s.env.platform ∧ t.env.issue = s.env.issue

/-- R183, R184: the two waits of AwaitFrameStart, staying and leaving; nothing else changes. That RDATA keeps its byte is the
model's choice (assumption 26). -/
def Obligations.VsyncWaits : Prop :=
  ∀ s : State,
    (s.fce.state = .vsWhileLow → (s.env.snapshotAt 0).vsync = false → exec (.waitw .vsync false) s = .next s.nextTick) ∧
    ((s.env.snapshotAt 0).vsync = true → exec (.waitw .vsync false) s =
      .next { s with fce := { s.fce with state := .vsWhileHigh } }.nextTick) ∧
    (s.fce.state = .vsWhileHigh → (s.env.snapshotAt 0).vsync = true → exec (.waitw .vsync true) s = .next s.nextTick) ∧
    ((s.env.snapshotAt 0).vsync = false → exec (.waitw .vsync true) s =
      .next { s with fce := { s.fce with pulse := false, state := .hsWhileLow } }.nextTick)

/-- R185: the waits of AwaitLineStart, staying and leaving; two pulses are consumed; nothing else changes. That RDATA keeps its
byte is the model's choice (assumption 26). -/
def Obligations.HsyncWaits : Prop :=
  ∀ s : State,
    (s.fce.state = .hsWhileLow → (s.env.snapshotAt 0).hsync = false → exec (.waitw .hsync false) s = .next s.nextTick) ∧
    ((s.env.snapshotAt 0).hsync = true → exec (.waitw .hsync false) s =
      .next { s with fce := { s.fce with state := .hsWhileHigh } }.nextTick) ∧
    (s.fce.state = .hsWhileHigh → (s.env.snapshotAt 0).hsync = true → exec (.waitw .hsync true) s = .next s.nextTick) ∧
    ((s.env.snapshotAt 0).hsync = false → s.fce.pulse = false → exec (.waitw .hsync true) s =
      .next { s with fce := { s.fce with pulse := true, state := .hsWhileLow } }.nextTick) ∧
    ((s.env.snapshotAt 0).hsync = false → s.fce.pulse = true → exec (.waitw .hsync true) s =
      .next { s with fce := { s.fce with pulse := false, column := 0, edge := 0, state := .pkWhileHigh } }.nextTick)

/-- R186, R188: the waits of an edge, staying and leaving; the third and the fourth edge of a pixel are not sampled and advance
the cursor in the same step; nothing else changes. That RDATA keeps its byte is the model's choice (assumption 26). -/
def Obligations.PclkWaits : Prop :=
  ∀ s : State,
    (s.fce.state = .pkWhileHigh → (s.env.snapshotAt 0).pclk = true → exec (.waitw .pclk true) s = .next s.nextTick) ∧
    ((s.env.snapshotAt 0).pclk = false → exec (.waitw .pclk true) s =
      .next { s with fce := { s.fce with state := .pkWhileLow } }.nextTick) ∧
    (s.fce.state = .pkWhileLow → (s.env.snapshotAt 0).pclk = false → exec (.waitw .pclk false) s = .next s.nextTick) ∧
    ((s.env.snapshotAt 0).pclk = true → s.fce.edge.toNat < 2 → exec (.waitw .pclk false) s =
      .next { s with fce := { s.fce with state := .sample } }.nextTick) ∧
    ((s.env.snapshotAt 0).pclk = true → 2 ≤ s.fce.edge.toNat → exec (.waitw .pclk false) s =
      .next { s with fce := s.fce.advance }.nextTick)

/-- R187: SAMPLE stores `{D7, DPORT}` of the current tick at FB[byteIndex]; every other byte of the frame buffer reads as
before; `byteIndex` advances by one and then the cursor; the tick is consumed and nothing else changes. That RDATA keeps its
byte is the model's choice (assumption 26). -/
def Obligations.SampleStoresTheByte : Prop :=
  ∀ s : State, s.fce.byteIndex.toNat < 38400 → ∃ t, exec .sample s = .next t ∧
    t = { s with fb := t.fb, fce := t.fce, env := t.env } ∧
    (t.readFrame s.fce.byteIndex.toNat).getLsbD 7 = (s.env.snapshotAt 0).d7 ∧
    (t.readFrame s.fce.byteIndex.toNat).extractLsb' 0 7 = (s.env.snapshotAt 0).dport ∧
    (∀ a, a ≠ s.fce.byteIndex.toNat → t.readFrame a = s.readFrame a) ∧
    t.fce = { s.fce with byteIndex := s.fce.byteIndex + 1 }.advance ∧
    (∀ k, t.env.snapshotAt k = s.env.snapshotAt (k + 1)) ∧ (∀ k, t.env.sdaAt k = s.env.sdaAt k) ∧
    t.env.host = s.env.host ∧ t.env.platform = s.env.platform ∧ t.env.issue = s.env.issue

/-- R188: `advance`, for a cursor in its ranges. -/
def Obligations.AdvanceMovesTheCursor : Prop :=
  ∀ f : FceRegs, f.line.toNat ≤ 119 → f.column.toNat ≤ 159 →
    (f.edge.toNat < 3 → f.advance = { f with edge := f.edge + 1, state := .pkWhileHigh }) ∧
    (f.edge.toNat = 3 → f.column.toNat < 159 →
      f.advance = { f with edge := 0, column := f.column + 1, state := .pkWhileHigh }) ∧
    (f.edge.toNat = 3 → f.column.toNat = 159 → f.line.toNat < 119 →
      f.advance = { f with edge := 0, column := 160, line := f.line + 1, state := .hsWhileLow }) ∧
    (f.edge.toNat = 3 → f.column.toNat = 159 → f.line.toNat = 119 →
      f.advance = { f with edge := 0, column := 160, line := 120, state := .complete })

/-- R200: IRQ_MASK saves the platform's mask state, masks everything and sets IRQ_MASKED; nothing else changes. That RDATA keeps
its byte is the model's choice (assumption 26). -/
def Obligations.IrqMaskSavesAndMasks : Prop :=
  ∀ s : State, exec .irqMask s = .next { s with
    fce := { s.fce with irqSaved := s.irqMask }, irqMask := .allMasked, flags := { s.flags with irqMasked := true } }

/-- R201: IRQ_RESTORE makes the platform's mask state the saved one, which need not be "all enabled"; nothing else changes. That
RDATA keeps its byte is the model's choice (assumption 26). -/
def Obligations.IrqRestoreRestores : Prop :=
  ∀ s : State, exec .irqRestore s = .next { s with
    irqMask := s.fce.irqSaved, flags := { s.flags with irqMasked := false } }

/-- R190: step COMPLETE is IRQ_RESTORE's effect, FRAME_DONE 1 and IDLE, and BUSY falls to 0; it consumes no tick. That the
host's and the platform's moves of the step are taken from their schedules, so that a platform move of that very step does not
land, is the model's choice (assumptions 1, 13). That RDATA keeps its byte is the model's choice (assumption 26). -/
def Obligations.CompleteEndsTheCapture : Prop :=
  ∀ s : State, s.undisturbed → s.cbw.state = .idle → s.cfg.state = .idle → s.fce.state = .complete →
    ∃ t, step s = .next t ∧ t.busy = false ∧ t = { s with
      fce := { s.fce with state := .idle }
      irqMask := s.fce.irqSaved
      flags := { s.flags with irqMasked := false, frameDone := true }
      env := { s.env with host := s.env.host.tail, platform := s.env.platform.tail } }

/-! ### The configurator -/

/-- R121: step FETCH: the end of the table is `Ok`; otherwise the write of entry `idx` starts as WRITE_REGISTER's would. The
entry read as one value has its address in bits 15:8 and its value in bits 7:0 (R98). Beside it the host's and the platform's
moves of the step are made, of which the platform's may change the interrupt mask (`nextMoves`, the model's assumptions 1, 13).
That RDATA keeps its byte is the model's choice (assumption 26). -/
def Obligations.FetchStartsTheWriteOfTheEntry : Prop :=
  ∀ s : State, s.undisturbed → s.cbw.state = .idle → s.cfg.state = .fetch →
    (s.cfg.idx.toNat = s.params.tableLen → step s = .next { s.nextMoves with
      cfg := { s.cfg with state := .idle }, flags := { s.flags with cfgOk := true } }) ∧
    (∀ e, s.cfg.idx.toNat ≠ s.params.tableLen → s.params.table[s.cfg.idx.toNat]? = some e →
      step s = .next { s.nextMoves with
        cbw := { s.cbw with wrAddr := e.address, wrVal := e.value, ok := true, bytesel := 0, state := .s1 }
        cfg := { s.cfg with state := .write } }) ∧
    (∀ w, s.cfg.idx.toNat ≠ s.params.tableLen → s.readTable? s.cfg.idx.toNat = some w →
      step s = .next { s.nextMoves with
        cbw := { s.cbw with
          wrAddr := w.extractLsb' 8 8, wrVal := w.extractLsb' 0 8, ok := true, bytesel := 0, state := .s1 }
        cfg := { s.cfg with state := .write } })

/-- R123, R259: step WRITE: after a successful write the settle delay is loaded, after a failed one `BusFailure(idx)` is
recorded and CONFIGURE ends. Beside it the host's and the platform's moves of the step are made, of which the platform's may
change the interrupt mask (`nextMoves`, the model's assumptions 1, 13); nothing else changes. That RDATA keeps its byte is the
model's choice (assumption 26). -/
def Obligations.WriteResultIsJudged : Prop :=
  ∀ s : State, s.undisturbed → s.cbw.state = .idle → s.cfg.state = .write →
    (s.flags.wrOk = true → step s = .next { s.nextMoves with
      cfg := { s.cfg with settleCnt := s.params.settleTicks, state := .settle } }) ∧
    (s.flags.wrOk = false → ∃ t, step s = .next t ∧ t.busFailure? = some s.cfg.idx ∧
      t = { s.nextMoves with
        cfg := { s.cfg with errIndex := s.cfg.idx, state := .idle }, flags := { s.flags with cfgErr := true } })

/-- R124: one settle step counts down by one; at 0 the next entry is fetched; nothing else changes, no tick of `t` either
(assumption 11). At `idx` 65535, outside R33's range, that the next entry is 0 is the model's choice (assumption 21). That RDATA
keeps its byte is the model's choice (assumption 26). -/
def Obligations.DelayCountsDown : Prop :=
  ∀ s : State, s.cfg.state = .settle → 1 ≤ s.cfg.settleCnt →
    (s.cfg.settleCnt = 1 → exec .delay s = .next { s with
      cfg := { s.cfg with settleCnt := 0, idx := s.cfg.idx + 1, state := .fetch } }) ∧
    (1 < s.cfg.settleCnt → exec .delay s = .next { s with
      cfg := { s.cfg with settleCnt := s.cfg.settleCnt - 1 } })

/-- R124: a delay lasts exactly as many steps as its counter was loaded with, and then the next entry is fetched. At `idx` 65535,
outside R33's range, that the next entry is 0 is the model's choice (assumption 21). -/
def Obligations.SettleDelayLastsItsCount : Prop :=
  ∀ s : State, s.undisturbed → s.cbw.state = .idle → s.cfg.state = .settle → 1 ≤ s.cfg.settleCnt →
    (∀ n, n < s.cfg.settleCnt → ∃ t, run n s = .next t ∧ t.cfg.state = .settle ∧ t.cfg.settleCnt = s.cfg.settleCnt - n) ∧
    ∃ t, run s.cfg.settleCnt s = .next t ∧ t.cfg.state = .fetch ∧ t.cfg.idx = s.cfg.idx + 1 ∧ t.cfg.settleCnt = 0 ∧
      t.cbw = s.cbw ∧ t.fce = s.fce ∧ t.fb = s.fb ∧ t.flags = s.flags

/-- R125, R231, R304: a CONFIGURE whose every byte is acknowledged ends with `Ok` after
`TABLE_LEN * (91 + SETTLE_TICKS) + 1` steps, having taken three draws an entry. -/
def Obligations.AcknowledgedConfigureSucceeds : Prop :=
  ∀ s : State, s.undisturbed → s.busy = false → s.cbw.pinsInv → s.params.wf →
    (∀ k, k < 3 * s.params.tableLen → s.env.sdaAt k = false) →
    ∃ t, run (s.params.tableLen * (91 + s.params.settleTicks) + 1) s.startConfigure = .next t ∧ t.busy = false ∧
      t.flags.cfgOk = true ∧ t.flags.cfgErr = false ∧ t.cbw.pinsInv ∧
      (∀ k, t.env.sdaAt k = s.env.sdaAt (k + 3 * s.params.tableLen)) ∧ t.fb = s.fb ∧ t.fce = s.fce

/-- R125, R250, R258, C2: when the entries before `k` are acknowledged and a byte of entry `k` is not, CONFIGURE ends with
`BusFailure(k)` at the end of that entry's write and draws nothing for a later one. With SCCB_ABORT_ON_NACK = false that write
is whole, 1 + 89 + 1 steps and three draws; with true it ends after its first missing acknowledge, 1 + 33 + 1 steps and one
draw, 1 + 61 + 1 and two, or 1 + 89 + 1 and three. -/
def Obligations.ConfigureStopsAtTheFirstFailure : Prop :=
  ∀ (s : State) (k : Nat), s.undisturbed → s.busy = false → s.params.wf → k < s.params.tableLen →
    (∀ j, j < 3 * k → s.env.sdaAt j = false) →
    (s.params.abortOnNack = false →
      (s.env.sdaAt (3 * k) = true ∨ s.env.sdaAt (3 * k + 1) = true ∨ s.env.sdaAt (3 * k + 2) = true) →
      s.configureFails k (k * (91 + s.params.settleTicks) + 91) (3 * k + 3)) ∧
    (s.params.abortOnNack = true → s.env.sdaAt (3 * k) = true →
      s.configureFails k (k * (91 + s.params.settleTicks) + 35) (3 * k + 1)) ∧
    (s.params.abortOnNack = true → s.env.sdaAt (3 * k) = false → s.env.sdaAt (3 * k + 1) = true →
      s.configureFails k (k * (91 + s.params.settleTicks) + 63) (3 * k + 2)) ∧
    (s.params.abortOnNack = true → s.env.sdaAt (3 * k) = false → s.env.sdaAt (3 * k + 1) = false →
      s.env.sdaAt (3 * k + 2) = true →
      s.configureFails k (k * (91 + s.params.settleTicks) + 91) (3 * k + 3))

/-! ### A capture as a whole -/

/-- R182, R194: a wait lasts until its pin is polled at the other level, and only that poll leaves it. -/
def Obligations.WaitLastsUntilThePinChanges : Prop :=
  ∀ (s : State) (pin : Pin) (level : Bool) (n : Nat), s.undisturbed → s.cbw.state = .idle → s.cfg.state = .idle →
    s.fce.state = waitState pin level → (∀ k, k < n → (s.env.snapshotAt k).pin pin = level) →
    (s.env.snapshotAt n).pin pin = !level →
    (∀ m, m ≤ n → ∃ t, run m s = .next t ∧ t.fce = s.fce ∧ t.fb = s.fb) ∧
    ∃ t, run (n + 1) s = .next t ∧ t.fce = s.fce.leaveWait pin level ∧ t.fb = s.fb ∧
      ∀ k, t.env.snapshotAt k = s.env.snapshotAt (k + n + 1)

/-- R197: as long as the awaited line does not change, however long, the capture hangs: after `n` such ticks BUSY is 1 and the
engine, the flags, the interrupt mask and the frame buffer are as they were, with interrupts masked and FRAME_DONE 0, whatever
the host presents and whatever the platform would do to its mask (assumption 13). -/
def Obligations.StuckLineHangsTheCapture : Prop :=
  ∀ (s : State) (pin : Pin) (level : Bool) (n : Nat), s.undisturbed → s.cbw.state = .idle → s.cfg.state = .idle →
    s.captureInv → s.fce.state = waitState pin level → (∀ k, k < n → (s.env.snapshotAt k).pin pin = level) →
    ∃ t, run n s = .next t ∧ t.busy = true ∧ t.fce = s.fce ∧ t.flags = s.flags ∧ t.irqMask = s.irqMask ∧ t.fb = s.fb ∧
      t.flags.irqMasked = true ∧ t.irqMask = .allMasked ∧ t.flags.frameDone = false

/-- R105 (PIXEL), R187, R204: on the trace of one pixel the engine stores exactly the two bytes shown at the ticks after the
first two edges, at the next two addresses, and no other byte changes. -/
def Obligations.PixelStoresItsTwoBytes : Prop :=
  ∀ (s : State) (b0 b1 : Byte) (xs rest : List Snapshot), s.undisturbed → s.cbw.state = .idle → s.cfg.state = .idle →
    s.fce.state = .pkWhileHigh → s.fce.edge = 0 → s.fce.byteIndex.toNat + 1 < 38400 →
    s.env.pins = xs ++ rest → PixelTrace b0 b1 xs →
    ∃ t, run xs.length s = .next t ∧ t.env.pins = rest ∧ t.fce.byteIndex = s.fce.byteIndex + 2 ∧
      t.readFrame s.fce.byteIndex.toNat = b0 ∧ t.readFrame (s.fce.byteIndex.toNat + 1) = b1 ∧
      (∀ a, a ≠ s.fce.byteIndex.toNat → a ≠ s.fce.byteIndex.toNat + 1 → t.readFrame a = s.readFrame a) ∧
      t.fce = { s.fce with byteIndex := s.fce.byteIndex + 2, edge := 3 }.advance

/-- R67, R196, R205: on the trace of one frame a started capture completes, one step after the trace's last tick, with byte
`P(i)` at every address `i`, interrupts restored, FRAME_DONE 1 and BUSY 0. -/
def Obligations.CaptureReproducesTheFrame : Prop :=
  ∀ (s : State) (P : Nat → Byte) (xs rest : List Snapshot), s.undisturbed → s.busy = false →
    s.env.pins = xs ++ rest → FrameTrace P xs →
    ∃ t, run (xs.length + 1) s.startCapture = .next t ∧ t.busy = false ∧ t.flags.frameDone = true ∧
      t.flags.irqMasked = false ∧ t.irqMask = s.irqMask ∧ t.env.pins = rest ∧
      t.fce.line = 120 ∧ t.fce.column = 160 ∧ t.fce.byteIndex = 38400 ∧
      ∀ i, i < 38400 → t.readFrame i = P i

/-- R192: the data lines never steer the engine: two running captures at the same cursor that see the same sync and clock
levels stay at the same cursor, whatever their data lines and frame buffers. -/
def Obligations.DataLinesNeverSteerTheEngine : Prop :=
  ∀ (n : Nat) (s s' t : State), s.undisturbed → s'.undisturbed →
    s.cbw.state = .idle → s.cfg.state = .idle → s'.cbw.state = .idle → s'.cfg.state = .idle →
    s'.fce = { s.fce with irqSaved := s'.fce.irqSaved } →
    (∀ k pin, (s.env.snapshotAt k).pin pin = (s'.env.snapshotAt k).pin pin) →
    (∀ m u, m < n → run m s = .next u → u.fce.state ≠ .idle) → run n s = .next t →
    ∃ t', run n s' = .next t' ∧ t'.fce = { t.fce with irqSaved := t'.fce.irqSaved }

/-- R195: the bytes a capture stores are a function of the snapshots alone. Two running captures at the same cursor that see
the same snapshots and agree on the bytes stored so far go on to store the same bytes; when they complete, their frame buffers
are byte-identical. Two captures that were just accepted, in any two states, meet the premises: nothing is stored yet. -/
def Obligations.StoredBytesDependOnTheSnapshotsOnly : Prop :=
  ∀ (n : Nat) (s s' t : State), s.undisturbed → s'.undisturbed →
    s.cbw.state = .idle → s.cfg.state = .idle → s'.cbw.state = .idle → s'.cfg.state = .idle →
    s.fce.cursorInv → s.memoryInv → s'.memoryInv → s.fce.state ≠ .idle →
    s'.fce = { s.fce with irqSaved := s'.fce.irqSaved } → (∀ k, s.env.snapshotAt k = s'.env.snapshotAt k) →
    (∀ a, a < s.fce.byteIndex.toNat → Memory.read? s'.fb a = Memory.read? s.fb a) →
    (∀ m u, m < n → run m s = .next u → u.fce.state ≠ .idle) → run n s = .next t →
    ∃ t', run n s' = .next t' ∧ t'.fce = { t.fce with irqSaved := t'.fce.irqSaved } ∧
      (∀ a, a < t.fce.byteIndex.toNat → Memory.read? t'.fb a = Memory.read? t.fb a) ∧
      (t.fce.state = .idle → t'.fb = t.fb)

/-! ### Rules of the whole machine -/

/-- The invariants of the block hold after reset. -/
def Obligations.InvariantsHoldAtReset : Prop := State.reset.Inv

/-- R10, R35, R254: from every state that meets the invariants a step neither faults nor is refused: it answers a next state,
which meets them again. -/
def Obligations.EveryStepKeepsTheInvariantsAndNeverStops : Prop :=
  ∀ s : State, s.Inv → ∃ t, step s = .next t ∧ t.Inv

/-- R28 (a) to (e): every step keeps the cursor's invariants. -/
def Obligations.EveryStepKeepsTheCursorInvariant : Prop :=
  ∀ s t : State, s.env.issue = none → s.fce.cursorInv → step s = .next t → t.fce.cursorInv

/-- R157 and the levels of each step of R144 to R150: every step keeps the pins' invariant, so that the bus is idle whenever
the writer is. -/
def Obligations.EveryStepKeepsTheBusInvariant : Prop :=
  ∀ s t : State, s.env.issue = none → s.cbw.pinsInv → step s = .next t →
    t.cbw.pinsInv ∧ (t.cbw.state = .idle → t.cbw.scl = true ∧ t.cbw.sdaM = true)

/-- R60, R61: every step, of an internal word issued by itself too, keeps both memories in canonical form and within their
address spaces. -/
def Obligations.EveryStepKeepsTheMemoryForm : Prop :=
  ∀ s t : State, s.memoryInv → step s = .next t → t.memoryInv

/-- R28 (f): during a capture `byteIndex` never decreases, and it advances exactly in a SAMPLE step, by one. -/
def Obligations.ByteIndexAdvancesOnlyInSample : Prop :=
  ∀ s t : State, s.Inv → s.undisturbed → s.fce.state ≠ .idle → step s = .next t →
    (s.fce.state = .sample → t.fce.byteIndex.toNat = s.fce.byteIndex.toNat + 1) ∧
    (s.fce.state ≠ .sample → t.fce.byteIndex = s.fce.byteIndex)

/-- R9, R35, R202: one unit steps at a time, by priority; an idle block with a silent host changes nothing (assumption 17). The
interrupt mask moves by itself only as the platform moves it, and not while the block has it masked (assumption 13). That RDATA
keeps its byte is the model's choice (assumption 26). -/
def Obligations.OnlyOneUnitSteps : Prop :=
  ∀ s t : State, s.undisturbed → step s = .next t →
    (s.cbw.state ≠ .idle → t.fce = s.fce ∧ t.cfg = s.cfg ∧ t.fb = s.fb ∧ t.rdata = s.rdata ∧ t.irqMask = s.platformMask) ∧
    (s.cbw.state = .idle → s.cfg.state ≠ .idle →
      t.fce = s.fce ∧ t.fb = s.fb ∧ t.rdata = s.rdata ∧ t.irqMask = s.platformMask ∧ t.sensor = s.sensor) ∧
    (s.cbw.state = .idle → s.cfg.state = .idle → s.fce.state ≠ .idle →
      t.cbw = s.cbw ∧ t.cfg = s.cfg ∧ t.rdata = s.rdata ∧ t.sensor = s.sensor ∧
        (s.fce.state ≠ .complete → t.irqMask = s.platformMask)) ∧
    (s.busy = false → s.env.host = [] → t = s.nextMoves) ∧
    (s.busy = false → s.env.host = [] → s.env.platform = [] → t = s) ∧
    (s.flags.irqMasked = true → s.platformMask = s.irqMask) ∧
    (s.flags.irqMasked = false → ∀ m, s.env.platform.head? = some (.setMask m) → s.platformMask = m) ∧
    ((∀ m, s.env.platform.head? ≠ some (.setMask m)) → s.platformMask = s.irqMask)

/-- R61, R193: no step but the engine's SAMPLE writes the frame buffer, and that step writes only FB[byteIndex]. -/
def Obligations.OnlySampleWritesTheFrameBuffer : Prop :=
  ∀ s t : State, s.env.issue = none → step s = .next t →
    t.fb = s.fb ∨ (s.cbw.state = .idle ∧ s.cfg.state = .idle ∧ s.fce.state = .sample ∧
      ∀ a, a ≠ s.fce.byteIndex.toNat → t.readFrame a = s.readFrame a)

/-- R40, R62: no step, whatever the host presents or issues, changes the Register Table or another parameter. -/
def Obligations.ParametersNeverChange : Prop :=
  ∀ s t : State, step s = .next t → t.params = s.params

/-- R36: FRAME_DONE is set only by COMPLETE and CFG_ERR only by the configurator's WRITE of a failed write. -/
def Obligations.ResultFlagsAreSetOnlyByTheirSteps : Prop :=
  ∀ s t : State, s.env.issue = none → step s = .next t →
    (s.flags.frameDone = false → t.flags.frameDone = true → s.fce.state = .complete) ∧
    (s.flags.cfgErr = false → t.flags.cfgErr = true → s.cfg.state = .write ∧ s.flags.wrOk = false) ∧
    (s.flags.cfgOk = false → t.flags.cfgOk = true → s.cfg.state = .fetch ∧ s.cfg.idx.toNat = s.params.tableLen) ∧
    (t.flags.wrOk ≠ s.flags.wrOk → s.cbw.state = .p3 ∨ s.env.host.head? = some .reset)
end

