-- ==== Sys2Proof/Laws/Encoding.lean ====
section
/-! SUPPORT. The fields of a packed word, and the word back from its fields (30_encoding.md R90). -/

namespace Sys2Proof

variable (op a b : Byte)

/-- Where each bit of a packed word comes from. -/
theorem OpWord.pack_getLsbD (i : Nat) : (OpWord.pack op a b).getLsbD i =
    if i < 8 then b.getLsbD i else if i < 16 then a.getLsbD (i - 8) else op.getLsbD (i - 16) := by
  unfold OpWord.pack
  refine (BitVec.getLsbD_append (x := op ++ a) (y := b) (i := i)).trans ?_
  split
  · rfl
  · rw [BitVec.getLsbD_append]
    split
    · rw [if_pos (by omega)]
    · rw [if_neg (by omega)]; congr 1

@[simp] theorem OpWord.opcode_pack : (OpWord.pack op a b).opcode = op := by
  apply BitVec.eq_of_getLsbD_eq; intro i hi
  simp [OpWord.opcode, OpWord.pack_getLsbD, hi]; omega

@[simp] theorem OpWord.fieldA_pack : (OpWord.pack op a b).fieldA = a := by
  apply BitVec.eq_of_getLsbD_eq; intro i hi
  simp [OpWord.fieldA, OpWord.pack_getLsbD, hi]; omega

@[simp] theorem OpWord.fieldB_pack : (OpWord.pack op a b).fieldB = b := by
  apply BitVec.eq_of_getLsbD_eq; intro i hi
  simp [OpWord.fieldB, OpWord.pack_getLsbD, hi]

/-- A word is its three fields. -/
theorem OpWord.pack_fields (w : OpWord) : OpWord.pack w.opcode w.fieldA w.fieldB = w := by
  apply BitVec.eq_of_getLsbD_eq; intro i hi
  rw [OpWord.pack_getLsbD]
  split
  · simp [OpWord.fieldB, *]
  · split
    · simp [OpWord.fieldA]; rw [show 8 + (i - 8) = i by omega]; simp; omega
    · simp [OpWord.opcode]; rw [show 16 + (i - 16) = i by omega]; simp; omega

theorem frameIndex_getLsbD (i : Nat) : (frameIndex a b).getLsbD i =
    if i < 8 then b.getLsbD i else a.getLsbD (i - 8) :=
  BitVec.getLsbD_append (x := a) (y := b) (i := i)

/-- The two halves of an index give it back (R92). -/
theorem frameIndex_halves (x : BitVec 16) : frameIndex (x.extractLsb' 8 8) (x.extractLsb' 0 8) = x := by
  apply BitVec.eq_of_getLsbD_eq; intro i hi
  rw [frameIndex_getLsbD]
  split
  · simp [*]
  · simp; rw [show 8 + (i - 8) = i by omega]; simp; omega

theorem frameIndex_high : (frameIndex a b).extractLsb' 8 8 = a := by
  apply BitVec.eq_of_getLsbD_eq; intro i hi
  simp only [BitVec.getLsbD_extractLsb', frameIndex_getLsbD]; simp [hi]

theorem frameIndex_low : (frameIndex a b).extractLsb' 0 8 = b := by
  apply BitVec.eq_of_getLsbD_eq; intro i hi
  simp only [BitVec.getLsbD_extractLsb', frameIndex_getLsbD]; simp [hi]

/-- An entry's value has its address in bits 15:8 (R98). -/
@[simp] theorem RegEntry.word_high (e : RegEntry) : e.word.extractLsb' 8 8 = e.address := frameIndex_high ..

/-- An entry's value has its value byte in bits 7:0 (R98). -/
@[simp] theorem RegEntry.word_low (e : RegEntry) : e.word.extractLsb' 0 8 = e.value := frameIndex_low ..

@[simp] theorem RegEntry.ofWord_word (e : RegEntry) : RegEntry.ofWord e.word = e := by simp [RegEntry.ofWord]

/-- The decoder reads the encoder's own fields. -/
theorem decode_encode_fields (i : Instr) : decode (encode i) = decodeFields i.opcode i.operandA i.operandB := by
  simp [decode, encode]

end Sys2Proof
end

