-- ==== Sys2Proof/Laws/Memory.lean ====
section
/-! SUPPORT. The laws of memory: a read after a write, the canonical form kept, and two memories in that form that read alike
are equal. -/

namespace Sys2Proof.Machine

variable {m m' : Memory} {a k n : Nat} {b v : Byte}

@[simp] theorem Memory.read?_nil : Memory.read? [] a = none := rfl

theorem Memory.read?_cons : Memory.read? ((k, v) :: m) a = if k = a then some v else Memory.read? m a := rfl

theorem Memory.read?_write_same : Memory.read? (Memory.write m a b) a = some b := by
  induction m with
  | nil => simp [Memory.write, Memory.read?_cons]
  | cons c rest ih =>
    obtain ⟨k, v⟩ := c
    simp only [Memory.write]
    split
    · simp [Memory.read?_cons]
    · split
      · simp [Memory.read?_cons]
      · rw [Memory.read?_cons, if_neg (by omega), ih]

theorem Memory.read?_write_other (h : k ≠ a) : Memory.read? (Memory.write m a b) k = Memory.read? m k := by
  induction m with
  | nil => simp [Memory.write, Memory.read?_cons, h.symm]
  | cons c rest ih =>
    obtain ⟨k', v⟩ := c
    simp only [Memory.write]
    split
    · rw [Memory.read?_cons, if_neg h.symm]
    · split
      · subst_vars
        rw [Memory.read?_cons, Memory.read?_cons, if_neg h.symm, if_neg h.symm]
      · rw [Memory.read?_cons, Memory.read?_cons, ih]

/-- Every cell of a written memory is the written one or an old one. -/
theorem Memory.mem_write {c : Host.Cell} (h : c ∈ Memory.write m a b) : c = (a, b) ∨ c ∈ m := by
  induction m with
  | nil => simpa [Memory.write] using h
  | cons d rest ih =>
    simp only [Memory.write] at h
    split at h
    · simpa using h
    · split at h
      · simp only [List.mem_cons] at h ⊢
        tauto
      · simp only [List.mem_cons] at h ⊢
        rcases h with rfl | h
        · exact .inr (.inl rfl)
        · exact (ih h).imp_right .inr

theorem Memory.wf_nil : Memory.wf [] := List.Pairwise.nil

/-- After reset both memories are in canonical form. -/
theorem State.reset_memories_wf : Memory.wf State.reset.fb ∧ Memory.wf State.reset.sensor :=
  ⟨Memory.wf_nil, Memory.wf_nil⟩

theorem Memory.wf_write (h : Memory.wf m) : Memory.wf (Memory.write m a b) := by
  induction m with
  | nil => simp [Memory.write, Memory.wf]
  | cons c rest ih =>
    obtain ⟨k, v⟩ := c
    obtain ⟨hk, hr⟩ := List.pairwise_cons.mp h
    simp only [Memory.write]
    split
    · exact List.pairwise_cons.mpr ⟨fun d hd => by
        rcases List.mem_cons.mp hd with rfl | hd
        · assumption
        · have := hk d hd; simp only at this ⊢; omega, h⟩
    · split
      · subst_vars
        exact List.pairwise_cons.mpr ⟨hk, hr⟩
      · refine List.pairwise_cons.mpr ⟨fun d hd => ?_, ih hr⟩
        rcases Memory.mem_write hd with rfl | hd
        · simp only; omega
        · exact hk d hd

theorem Memory.wf_erase (h : Memory.wf m) : Memory.wf (Memory.erase m a) := h.sublist List.filter_sublist

theorem Memory.within_write (h : Memory.within m n) (ha : a < n) : Memory.within (Memory.write m a b) n := by
  intro c hc
  rcases Memory.mem_write hc with rfl | hc
  · exact ha
  · exact h c hc

theorem Memory.within_erase (h : Memory.within m n) : Memory.within (Memory.erase m a) n :=
  fun c hc => h c (List.mem_of_mem_filter hc)

theorem Memory.read?_erase_same : Memory.read? (Memory.erase m a) a = none := by
  induction m with
  | nil => rfl
  | cons c rest ih =>
    obtain ⟨k, v⟩ := c
    by_cases hk : k = a
    · simpa [Memory.erase, hk] using ih
    · simpa [Memory.erase, hk, Memory.read?_cons] using ih

theorem Memory.read?_erase_other (h : k ≠ a) : Memory.read? (Memory.erase m a) k = Memory.read? m k := by
  induction m with
  | nil => rfl
  | cons c rest ih =>
    obtain ⟨k', v⟩ := c
    by_cases hk : k' = a
    · simpa [Memory.erase, hk, Memory.read?_cons, h.symm] using ih
    · simp only [Memory.erase] at ih
      simp [Memory.erase, hk, Memory.read?_cons, ih]

/-- An address below every listed one holds nothing. -/
theorem Memory.read?_none_of_lt (h : ∀ c ∈ m, a < c.1) : Memory.read? m a = none := by
  induction m with
  | nil => rfl
  | cons c rest ih =>
    obtain ⟨k, v⟩ := c
    have hk : a < k := h (k, v) (by simp)
    rw [Memory.read?_cons, if_neg (by omega), ih fun d hd => h d (by simp [hd])]

/-- An address outside the space holds nothing. -/
theorem Memory.read?_none_of_within (h : Memory.within m n) (ha : n ≤ a) : Memory.read? m a = none := by
  induction m with
  | nil => rfl
  | cons c rest ih =>
    obtain ⟨k, v⟩ := c
    have hk : k < n := h (k, v) (by simp)
    rw [Memory.read?_cons, if_neg (by omega), ih fun d hd => h d (by simp [hd])]

/-- Memories in canonical form that hold the same bytes are the same data. -/
theorem Memory.ext_of_wf (h : Memory.wf m) (h' : Memory.wf m') (he : ∀ a, Memory.read? m a = Memory.read? m' a) :
    m = m' := by
  induction m generalizing m' with
  | nil =>
    cases m' with
    | nil => rfl
    | cons c rest =>
      have := he c.1
      simp [Memory.read?] at this
  | cons c rest ih =>
    obtain ⟨k, v⟩ := c
    cases m' with
    | nil =>
      have := he k
      simp [Memory.read?] at this
    | cons c' rest' =>
      obtain ⟨k', v'⟩ := c'
      obtain ⟨hk, hr⟩ := List.pairwise_cons.mp h
      obtain ⟨hk', hr'⟩ := List.pairwise_cons.mp h'
      have hn : Memory.read? rest k = none := Memory.read?_none_of_lt hk
      have hn' : Memory.read? rest' k' = none := Memory.read?_none_of_lt hk'
      have hkk : k = k' := by
        by_contra hne
        rcases Nat.lt_or_gt_of_ne hne with hlt | hgt
        · have := he k
          rw [Memory.read?_cons, Memory.read?_cons, if_pos rfl, if_neg (Ne.symm hne),
            Memory.read?_none_of_lt fun d hd => Nat.lt_trans hlt (hk' d hd)] at this
          simp at this
        · have := he k'
          rw [Memory.read?_cons, Memory.read?_cons, if_pos rfl, if_neg hne,
            Memory.read?_none_of_lt fun d hd => Nat.lt_trans hgt (hk d hd)] at this
          simp at this
      subst hkk
      have hv : v = v' := by simpa [Memory.read?_cons] using he k
      subst hv
      congr 1
      refine ih hr hr' fun a => ?_
      by_cases ha : k = a
      · rw [← ha, hn, hn']
      · simpa [Memory.read?_cons, ha] using he a

end Sys2Proof.Machine
end

