-- ==== Sys2Proof/Laws/State.lean ====
section
/-! SUPPORT. Each field after each named update of the state, so that no later proof unfolds an update. -/

namespace Sys2Proof.Machine

variable (e : Env)

@[simp] theorem Env.nextTick_pins : e.nextTick.pins = e.pins.tail := rfl
@[simp] theorem Env.nextTick_tick : e.nextTick.tick = e.tick + 1 := rfl
@[simp] theorem Env.nextTick_acks : e.nextTick.acks = e.acks := rfl
@[simp] theorem Env.nextTick_draws : e.nextTick.draws = e.draws := rfl
@[simp] theorem Env.nextTick_host : e.nextTick.host = e.host := rfl
@[simp] theorem Env.nextTick_platform : e.nextTick.platform = e.platform := rfl
@[simp] theorem Env.nextTick_issue : e.nextTick.issue = e.issue := rfl

@[simp] theorem Env.nextDraw_pins : e.nextDraw.pins = e.pins := rfl
@[simp] theorem Env.nextDraw_tick : e.nextDraw.tick = e.tick := rfl
@[simp] theorem Env.nextDraw_acks : e.nextDraw.acks = e.acks.tail := rfl
@[simp] theorem Env.nextDraw_draws : e.nextDraw.draws = e.draws + 1 := rfl
@[simp] theorem Env.nextDraw_host : e.nextDraw.host = e.host := rfl
@[simp] theorem Env.nextDraw_platform : e.nextDraw.platform = e.platform := rfl
@[simp] theorem Env.nextDraw_issue : e.nextDraw.issue = e.issue := rfl

@[simp] theorem Env.nextMoves_pins : e.nextMoves.pins = e.pins := rfl
@[simp] theorem Env.nextMoves_tick : e.nextMoves.tick = e.tick := rfl
@[simp] theorem Env.nextMoves_acks : e.nextMoves.acks = e.acks := rfl
@[simp] theorem Env.nextMoves_draws : e.nextMoves.draws = e.draws := rfl
@[simp] theorem Env.nextMoves_host : e.nextMoves.host = e.host.tail := rfl
@[simp] theorem Env.nextMoves_platform : e.nextMoves.platform = e.platform.tail := rfl
@[simp] theorem Env.nextMoves_issue : e.nextMoves.issue = e.issue := rfl

@[simp] theorem Env.clearIssue_pins : e.clearIssue.pins = e.pins := rfl
@[simp] theorem Env.clearIssue_tick : e.clearIssue.tick = e.tick := rfl
@[simp] theorem Env.clearIssue_acks : e.clearIssue.acks = e.acks := rfl
@[simp] theorem Env.clearIssue_draws : e.clearIssue.draws = e.draws := rfl
@[simp] theorem Env.clearIssue_host : e.clearIssue.host = e.host := rfl
@[simp] theorem Env.clearIssue_platform : e.clearIssue.platform = e.platform := rfl
@[simp] theorem Env.clearIssue_issue : e.clearIssue.issue = none := rfl

variable (s : State)

@[simp] theorem State.writeFrame_fce (a : Nat) (b : Byte) : (s.writeFrame a b).fce = s.fce := rfl
@[simp] theorem State.writeFrame_cbw (a : Nat) (b : Byte) : (s.writeFrame a b).cbw = s.cbw := rfl
@[simp] theorem State.writeFrame_cfg (a : Nat) (b : Byte) : (s.writeFrame a b).cfg = s.cfg := rfl
@[simp] theorem State.writeFrame_flags (a : Nat) (b : Byte) : (s.writeFrame a b).flags = s.flags := rfl
@[simp] theorem State.writeFrame_rdata (a : Nat) (b : Byte) : (s.writeFrame a b).rdata = s.rdata := rfl
@[simp] theorem State.writeFrame_fb (a : Nat) (b : Byte) : (s.writeFrame a b).fb = Memory.write s.fb a b := rfl
@[simp] theorem State.writeFrame_sensor (a : Nat) (b : Byte) : (s.writeFrame a b).sensor = s.sensor := rfl
@[simp] theorem State.writeFrame_irqMask (a : Nat) (b : Byte) : (s.writeFrame a b).irqMask = s.irqMask := rfl
@[simp] theorem State.writeFrame_params (a : Nat) (b : Byte) : (s.writeFrame a b).params = s.params := rfl
@[simp] theorem State.writeFrame_env (a : Nat) (b : Byte) : (s.writeFrame a b).env = s.env := rfl

@[simp] theorem State.nextTick_fce : (s.nextTick).fce = s.fce := rfl
@[simp] theorem State.nextTick_cbw : (s.nextTick).cbw = s.cbw := rfl
@[simp] theorem State.nextTick_cfg : (s.nextTick).cfg = s.cfg := rfl
@[simp] theorem State.nextTick_flags : (s.nextTick).flags = s.flags := rfl
@[simp] theorem State.nextTick_rdata : (s.nextTick).rdata = s.rdata := rfl
@[simp] theorem State.nextTick_fb : (s.nextTick).fb = s.fb := rfl
@[simp] theorem State.nextTick_sensor : (s.nextTick).sensor = s.sensor := rfl
@[simp] theorem State.nextTick_irqMask : (s.nextTick).irqMask = s.irqMask := rfl
@[simp] theorem State.nextTick_params : (s.nextTick).params = s.params := rfl
@[simp] theorem State.nextTick_env : (s.nextTick).env = s.env.nextTick := rfl

@[simp] theorem State.nextDraw_fce : (s.nextDraw).fce = s.fce := rfl
@[simp] theorem State.nextDraw_cbw : (s.nextDraw).cbw = s.cbw := rfl
@[simp] theorem State.nextDraw_cfg : (s.nextDraw).cfg = s.cfg := rfl
@[simp] theorem State.nextDraw_flags : (s.nextDraw).flags = s.flags := rfl
@[simp] theorem State.nextDraw_rdata : (s.nextDraw).rdata = s.rdata := rfl
@[simp] theorem State.nextDraw_fb : (s.nextDraw).fb = s.fb := rfl
@[simp] theorem State.nextDraw_sensor : (s.nextDraw).sensor = s.sensor := rfl
@[simp] theorem State.nextDraw_irqMask : (s.nextDraw).irqMask = s.irqMask := rfl
@[simp] theorem State.nextDraw_params : (s.nextDraw).params = s.params := rfl
@[simp] theorem State.nextDraw_env : (s.nextDraw).env = s.env.nextDraw := rfl

@[simp] theorem State.nextMoves_fce : (s.nextMoves).fce = s.fce := rfl
@[simp] theorem State.nextMoves_cbw : (s.nextMoves).cbw = s.cbw := rfl
@[simp] theorem State.nextMoves_cfg : (s.nextMoves).cfg = s.cfg := rfl
@[simp] theorem State.nextMoves_flags : (s.nextMoves).flags = s.flags := rfl
@[simp] theorem State.nextMoves_rdata : (s.nextMoves).rdata = s.rdata := rfl
@[simp] theorem State.nextMoves_fb : (s.nextMoves).fb = s.fb := rfl
@[simp] theorem State.nextMoves_sensor : (s.nextMoves).sensor = s.sensor := rfl
@[simp] theorem State.nextMoves_irqMask : (s.nextMoves).irqMask = s.platformMask := rfl
@[simp] theorem State.nextMoves_params : (s.nextMoves).params = s.params := rfl
@[simp] theorem State.nextMoves_env : (s.nextMoves).env = s.env.nextMoves := rfl

@[simp] theorem State.clearIssue_fce : (s.clearIssue).fce = s.fce := rfl
@[simp] theorem State.clearIssue_cbw : (s.clearIssue).cbw = s.cbw := rfl
@[simp] theorem State.clearIssue_cfg : (s.clearIssue).cfg = s.cfg := rfl
@[simp] theorem State.clearIssue_flags : (s.clearIssue).flags = s.flags := rfl
@[simp] theorem State.clearIssue_rdata : (s.clearIssue).rdata = s.rdata := rfl
@[simp] theorem State.clearIssue_fb : (s.clearIssue).fb = s.fb := rfl
@[simp] theorem State.clearIssue_sensor : (s.clearIssue).sensor = s.sensor := rfl
@[simp] theorem State.clearIssue_irqMask : (s.clearIssue).irqMask = s.irqMask := rfl
@[simp] theorem State.clearIssue_params : (s.clearIssue).params = s.params := rfl
@[simp] theorem State.clearIssue_env : (s.clearIssue).env = s.env.clearIssue := rfl

@[simp] theorem State.maskInterrupts_fce : (s.maskInterrupts).fce = { s.fce with irqSaved := s.irqMask } := rfl
@[simp] theorem State.maskInterrupts_cbw : (s.maskInterrupts).cbw = s.cbw := rfl
@[simp] theorem State.maskInterrupts_cfg : (s.maskInterrupts).cfg = s.cfg := rfl
@[simp] theorem State.maskInterrupts_flags : (s.maskInterrupts).flags = { s.flags with irqMasked := true } := rfl
@[simp] theorem State.maskInterrupts_rdata : (s.maskInterrupts).rdata = s.rdata := rfl
@[simp] theorem State.maskInterrupts_fb : (s.maskInterrupts).fb = s.fb := rfl
@[simp] theorem State.maskInterrupts_sensor : (s.maskInterrupts).sensor = s.sensor := rfl
@[simp] theorem State.maskInterrupts_irqMask : (s.maskInterrupts).irqMask = .allMasked := rfl
@[simp] theorem State.maskInterrupts_params : (s.maskInterrupts).params = s.params := rfl
@[simp] theorem State.maskInterrupts_env : (s.maskInterrupts).env = s.env := rfl

@[simp] theorem State.restoreInterrupts_fce : (s.restoreInterrupts).fce = s.fce := rfl
@[simp] theorem State.restoreInterrupts_cbw : (s.restoreInterrupts).cbw = s.cbw := rfl
@[simp] theorem State.restoreInterrupts_cfg : (s.restoreInterrupts).cfg = s.cfg := rfl
@[simp] theorem State.restoreInterrupts_flags : (s.restoreInterrupts).flags = { s.flags with irqMasked := false } := rfl
@[simp] theorem State.restoreInterrupts_rdata : (s.restoreInterrupts).rdata = s.rdata := rfl
@[simp] theorem State.restoreInterrupts_fb : (s.restoreInterrupts).fb = s.fb := rfl
@[simp] theorem State.restoreInterrupts_sensor : (s.restoreInterrupts).sensor = s.sensor := rfl
@[simp] theorem State.restoreInterrupts_irqMask : (s.restoreInterrupts).irqMask = s.fce.irqSaved := rfl
@[simp] theorem State.restoreInterrupts_params : (s.restoreInterrupts).params = s.params := rfl
@[simp] theorem State.restoreInterrupts_env : (s.restoreInterrupts).env = s.env := rfl

@[simp] theorem State.startConfigure_fce : (s.startConfigure).fce = s.fce := rfl
@[simp] theorem State.startConfigure_cbw : (s.startConfigure).cbw = s.cbw := rfl
@[simp] theorem State.startConfigure_cfg : (s.startConfigure).cfg = { s.cfg with idx := 0, state := .fetch } := rfl
@[simp] theorem State.startConfigure_flags : (s.startConfigure).flags = { s.flags with cfgOk := false, cfgErr := false } := rfl
@[simp] theorem State.startConfigure_rdata : (s.startConfigure).rdata = s.rdata := rfl
@[simp] theorem State.startConfigure_fb : (s.startConfigure).fb = s.fb := rfl
@[simp] theorem State.startConfigure_sensor : (s.startConfigure).sensor = s.sensor := rfl
@[simp] theorem State.startConfigure_irqMask : (s.startConfigure).irqMask = s.irqMask := rfl
@[simp] theorem State.startConfigure_params : (s.startConfigure).params = s.params := rfl
@[simp] theorem State.startConfigure_env : (s.startConfigure).env = s.env := rfl

@[simp] theorem State.startWrite_fce (a v : Byte) : (s.startWrite a v).fce = s.fce := rfl
@[simp] theorem State.startWrite_cbw (a v : Byte) : (s.startWrite a v).cbw = { s.cbw with wrAddr := a, wrVal := v, ok := true, bytesel := 0, state := .s1 } := rfl
@[simp] theorem State.startWrite_cfg (a v : Byte) : (s.startWrite a v).cfg = s.cfg := rfl
@[simp] theorem State.startWrite_flags (a v : Byte) : (s.startWrite a v).flags = s.flags := rfl
@[simp] theorem State.startWrite_rdata (a v : Byte) : (s.startWrite a v).rdata = s.rdata := rfl
@[simp] theorem State.startWrite_fb (a v : Byte) : (s.startWrite a v).fb = s.fb := rfl
@[simp] theorem State.startWrite_sensor (a v : Byte) : (s.startWrite a v).sensor = s.sensor := rfl
@[simp] theorem State.startWrite_irqMask (a v : Byte) : (s.startWrite a v).irqMask = s.irqMask := rfl
@[simp] theorem State.startWrite_params (a v : Byte) : (s.startWrite a v).params = s.params := rfl
@[simp] theorem State.startWrite_env (a v : Byte) : (s.startWrite a v).env = s.env := rfl

@[simp] theorem State.raiseBusFailure_fce : (s.raiseBusFailure).fce = s.fce := rfl
@[simp] theorem State.raiseBusFailure_cbw : (s.raiseBusFailure).cbw = s.cbw := rfl
@[simp] theorem State.raiseBusFailure_cfg : (s.raiseBusFailure).cfg = { s.cfg with errIndex := s.cfg.idx, state := .idle } := rfl
@[simp] theorem State.raiseBusFailure_flags : (s.raiseBusFailure).flags = { s.flags with cfgErr := true } := rfl
@[simp] theorem State.raiseBusFailure_rdata : (s.raiseBusFailure).rdata = s.rdata := rfl
@[simp] theorem State.raiseBusFailure_fb : (s.raiseBusFailure).fb = s.fb := rfl
@[simp] theorem State.raiseBusFailure_sensor : (s.raiseBusFailure).sensor = s.sensor := rfl
@[simp] theorem State.raiseBusFailure_irqMask : (s.raiseBusFailure).irqMask = s.irqMask := rfl
@[simp] theorem State.raiseBusFailure_params : (s.raiseBusFailure).params = s.params := rfl
@[simp] theorem State.raiseBusFailure_env : (s.raiseBusFailure).env = s.env := rfl

@[simp] theorem State.applyReset_fce : (s.applyReset).fce = FceRegs.reset := rfl
@[simp] theorem State.applyReset_cbw : (s.applyReset).cbw = CbwRegs.reset := rfl
@[simp] theorem State.applyReset_cfg : (s.applyReset).cfg = CfgRegs.reset := rfl
@[simp] theorem State.applyReset_flags : (s.applyReset).flags = Flags.reset := rfl
@[simp] theorem State.applyReset_rdata : (s.applyReset).rdata = 0 := rfl
@[simp] theorem State.applyReset_fb : (s.applyReset).fb = s.fb := rfl
@[simp] theorem State.applyReset_sensor : (s.applyReset).sensor = [] := rfl
@[simp] theorem State.applyReset_irqMask : (s.applyReset).irqMask = s.irqMask := rfl
@[simp] theorem State.applyReset_params : (s.applyReset).params = s.params := rfl
@[simp] theorem State.applyReset_env : (s.applyReset).env = s.env := rfl

end Sys2Proof.Machine
end

