-- ==== Sys2Proof/Laws/Ops.lean ====
section
/-! SUPPORT. One lemma per shared operation that says all it can do: inputs and their consumption, frame-buffer reads and
writes, `advance`, polls, and what each operation leaves unchanged. -/

namespace Sys2Proof.Machine

variable (s : State)

/-! ### Inputs -/

@[simp] theorem Env.snapshotAt_nextTick (e : Env) (k : Nat) : e.nextTick.snapshotAt k = e.snapshotAt (k + 1) := by
  simp [Env.snapshotAt, Nat.add_comm, Nat.add_left_comm]

@[simp] theorem Env.sdaAt_nextTick (e : Env) (k : Nat) : e.nextTick.sdaAt k = e.sdaAt k := rfl

@[simp] theorem Env.sdaAt_nextDraw (e : Env) (k : Nat) : e.nextDraw.sdaAt k = e.sdaAt (k + 1) := by
  simp [Env.sdaAt, Nat.add_comm, Nat.add_left_comm]

@[simp] theorem Env.snapshotAt_nextDraw (e : Env) (k : Nat) : e.nextDraw.snapshotAt k = e.snapshotAt k := rfl

@[simp] theorem Env.snapshotAt_nextMoves (e : Env) (k : Nat) : e.nextMoves.snapshotAt k = e.snapshotAt k := rfl

@[simp] theorem Env.sdaAt_nextMoves (e : Env) (k : Nat) : e.nextMoves.sdaAt k = e.sdaAt k := rfl

/-- A listed snapshot is the one polled. -/
theorem State.snapshot_of_pins {x : Snapshot} {xs : List Snapshot} (h : s.env.pins = x :: xs) : s.snapshot = x := by
  simp [State.snapshot, Env.snapshotAt, h]

/-! ### The platform's moves -/

/-- While the block has interrupts masked, the platform's moves do not land. -/
theorem State.platformMask_of_masked (h : s.flags.irqMasked = true) : s.platformMask = s.irqMask := by
  unfold State.platformMask; split <;> simp [h]

/-- Otherwise a platform that changes its mask has it changed. -/
theorem State.platformMask_of_set {m : IrqState} (h : s.flags.irqMasked = false)
    (hm : s.env.platform.head? = some (.setMask m)) : s.platformMask = m := by
  simp [State.platformMask, hm, h]

/-- A platform that is silent, or leaves its mask, has it as it was. -/
theorem State.platformMask_of_leave (h : ∀ m, s.env.platform.head? ≠ some (.setMask m)) : s.platformMask = s.irqMask := by
  unfold State.platformMask; split
  · exact absurd ‹_› (h _)
  all_goals rfl

/-! ### The Register Table -/

/-- Reading an entry as one value and taking it apart gives the entry. -/
@[simp] theorem State.tableEntry?_eq (k : Nat) : s.tableEntry? k = s.params.table[k]? := by
  simp [State.tableEntry?, State.readTable?, Function.comp_def]

/-! ### The frame buffer -/

@[simp] theorem State.readFrame_writeFrame_same (a : Nat) (b : Byte) : (s.writeFrame a b).readFrame a = b := by
  simp [State.readFrame, Memory.read?_write_same]

theorem State.readFrame_writeFrame_other {a k : Nat} (b : Byte) (h : k ≠ a) :
    (s.writeFrame a b).readFrame k = s.readFrame k := by
  simp [State.readFrame, Memory.read?_write_other h]

/-! ### The engine's cursor -/

/-- All that `advance` does (R188). -/
theorem FceRegs.advance_cases (f : FceRegs) :
    (f.edge ≠ 3 ∧ f.advance = { f with edge := f.edge + 1, state := .pkWhileHigh }) ∨
    (f.edge = 3 ∧ f.column.toNat + 1 < 160 ∧
      f.advance = { f with edge := 0, column := f.column + 1, state := .pkWhileHigh }) ∨
    (f.edge = 3 ∧ 160 ≤ f.column.toNat + 1 ∧ f.line.toNat + 1 < 120 ∧
      f.advance = { f with edge := 0, column := f.column + 1, line := f.line + 1, state := .hsWhileLow }) ∨
    (f.edge = 3 ∧ 160 ≤ f.column.toNat + 1 ∧ 120 ≤ f.line.toNat + 1 ∧
      f.advance = { f with edge := 0, column := f.column + 1, line := f.line + 1, state := .complete }) := by
  unfold FceRegs.advance
  by_cases he : f.edge = 3
  · rw [if_neg (not_not.mpr he)]
    by_cases hc : f.column.toNat + 1 < 160
    · exact .inr (.inl ⟨he, hc, if_pos hc⟩)
    · rw [if_neg hc]
      by_cases hl : f.line.toNat + 1 < 120
      · exact .inr (.inr (.inl ⟨he, not_lt.mp hc, hl, if_pos hl⟩))
      · exact .inr (.inr (.inr ⟨he, not_lt.mp hc, not_lt.mp hl, if_neg hl⟩))
  · exact .inl ⟨he, if_pos he⟩

/-- A poll that reads the level stays in the wait (R182). -/
theorem FceRegs.poll_same (f : FceRegs) (pin : Pin) (level : Bool) :
    f.poll pin level level = { f with state := waitState pin level } := by simp [FceRegs.poll]

/-- A poll that reads the other level leaves the wait (R182). -/
theorem FceRegs.poll_other (f : FceRegs) (pin : Pin) (level : Bool) :
    f.poll pin level (!level) = f.leaveWait pin level := by simp [FceRegs.poll]

@[simp] theorem FceRegs.advance_byteIndex (f : FceRegs) : f.advance.byteIndex = f.byteIndex := by
  obtain ⟨_, e⟩ | ⟨_, _, e⟩ | ⟨_, _, _, e⟩ | ⟨_, _, _, e⟩ := f.advance_cases <;> rw [e]

@[simp] theorem FceRegs.advance_irqSaved (f : FceRegs) : f.advance.irqSaved = f.irqSaved := by
  obtain ⟨_, e⟩ | ⟨_, _, e⟩ | ⟨_, _, _, e⟩ | ⟨_, _, _, e⟩ := f.advance_cases <;> rw [e]

/-- `advance` never ends a capture by itself (R190). -/
theorem FceRegs.advance_ne_idle (f : FceRegs) : f.advance.state ≠ .idle := by
  obtain ⟨_, e⟩ | ⟨_, _, e⟩ | ⟨_, _, _, e⟩ | ⟨_, _, _, e⟩ := f.advance_cases <;> rw [e] <;> exact FceState.noConfusion

/-- Leaving a wait moves neither the write position nor the saved mask state. -/
theorem FceRegs.leaveWait_frame (f : FceRegs) (pin : Pin) (level : Bool) :
    (f.leaveWait pin level).byteIndex = f.byteIndex ∧ (f.leaveWait pin level).irqSaved = f.irqSaved ∧
      (f.leaveWait pin level).state ≠ .idle := by
  unfold FceRegs.leaveWait
  cases pin <;> cases level <;> simp only
  case pclk.false => split <;> simp [FceRegs.advance_ne_idle]
  case hsync.true => split <;> simp
  all_goals simp

/-- A poll moves neither the write position nor the saved mask state, and does not end the capture. -/
theorem FceRegs.poll_frame (f : FceRegs) (pin : Pin) (level x : Bool) :
    (f.poll pin level x).byteIndex = f.byteIndex ∧ (f.poll pin level x).irqSaved = f.irqSaved ∧
      (f.poll pin level x).state ≠ .idle := by
  unfold FceRegs.poll
  split
  · exact ⟨rfl, rfl, by cases pin <;> cases level <;> exact FceState.noConfusion⟩
  · exact f.leaveWait_frame pin level

/-! ### What an operation leaves unchanged -/

/-- TXBYTE writes the writer's registers and takes at most a draw. -/
theorem State.txbyteStep_frame : s.txbyteStep.fce = s.fce ∧ s.txbyteStep.cfg = s.cfg ∧ s.txbyteStep.flags = s.flags ∧
    s.txbyteStep.rdata = s.rdata ∧ s.txbyteStep.fb = s.fb ∧ s.txbyteStep.sensor = s.sensor ∧
    s.txbyteStep.irqMask = s.irqMask ∧ s.txbyteStep.params = s.params ∧ s.txbyteStep.env.pins = s.env.pins ∧
    s.txbyteStep.env.tick = s.env.tick ∧ s.txbyteStep.env.host = s.env.host ∧
    s.txbyteStep.env.platform = s.env.platform ∧ s.txbyteStep.env.issue = s.env.issue := by
  unfold State.txbyteStep State.stepB3 State.stepA4
  cases s.cbw.state <;> simp only <;> (try split) <;>
    simp [State.stepB1, State.stepB2, State.stepA1, State.stepA2, State.stepA3]

/-- In its place, TXBYTE takes the step of the state it has reached. -/
theorem State.enterTxbyte_inPlace {b : Byte} (h : s.cbw.state.inTxbyte = true) (hb : s.cbw.sh = b) :
    s.enterTxbyte b = s := by simp [State.enterTxbyte, h, hb]

/-- START writes the writer's registers only. -/
theorem State.startStep_frame : s.startStep = { s with cbw := s.startStep.cbw } := by
  unfold State.startStep; split <;> rfl

/-- DELAY writes the configurator's registers only. -/
theorem State.delayStep_frame : s.enterDelay.delayStep = { s with cfg := s.enterDelay.delayStep.cfg } := by
  unfold State.delayStep State.enterDelay; split <;> split <;> rfl

/-! ### Operations with two outcomes -/

/-- All that step B3 does (R147). -/
theorem State.stepB3_cases :
    (s.cbw.bitcnt = 0 ∧ s.stepB3 = { s with cbw := { s.cbw with scl := false, state := .a1 } }) ∨
    (s.cbw.bitcnt ≠ 0 ∧
      s.stepB3 = { s with cbw := { s.cbw with scl := false, bitcnt := s.cbw.bitcnt - 1, state := .b1 } }) := by
  by_cases h : s.cbw.bitcnt = 0
  · exact .inl ⟨h, if_pos h⟩
  · exact .inr ⟨h, if_neg h⟩

/-- All that step A4 does (R149). -/
theorem State.stepA4_cases :
    (s.lastByte = true ∧ s.stepA4 = { s with cbw := { s.cbw with scl := false, state := .p1 } }) ∨
    (s.lastByte = false ∧ s.stepA4 = { s with cbw := { s.cbw with
      scl := false, bytesel := s.cbw.bytesel + 1, sh := s.busByte (s.cbw.bytesel + 1), bitcnt := 7, state := .b1 } }) := by
  cases h : s.lastByte
  · exact .inr ⟨rfl, if_neg (by simp [h])⟩
  · exact .inl ⟨rfl, if_pos h⟩

/-- All that the configurator's WRITE does (R123). -/
theorem State.judgeWrite_cases :
    (s.flags.wrOk = true ∧
      s.judgeWrite = { s with cfg := { s.cfg with settleCnt := s.params.settleTicks, state := .settle } }) ∨
    (s.flags.wrOk = false ∧ s.judgeWrite = s.raiseBusFailure) := by
  cases h : s.flags.wrOk
  · exact .inr ⟨rfl, if_neg (by simp [h])⟩
  · exact .inl ⟨rfl, if_pos h⟩

/-- All that a settle step does (R124). -/
theorem State.delayStep_cases :
    (s.cfg.settleCnt ≤ 1 ∧
      s.delayStep = { s with cfg := { s.cfg with settleCnt := 0, idx := s.cfg.idx + 1, state := .fetch } }) ∨
    (1 < s.cfg.settleCnt ∧ s.delayStep = { s with cfg := { s.cfg with settleCnt := s.cfg.settleCnt - 1 } }) := by
  by_cases h : s.cfg.settleCnt - 1 = 0
  · exact .inl ⟨by omega, (if_pos h).trans (by rw [h])⟩
  · exact .inr ⟨by omega, if_neg h⟩

end Sys2Proof.Machine
end

