-- ==== Sys2Proof/Laws/PerInstr.lean ====
section
/-! SUPPORT. The statements made per instruction: the class in bits 23:20 of an operation's word (R90, R91). -/

namespace Sys2Proof.Laws.ClassField

/-- Bits 23:20 of the operation's word are the number of its class. -/
def Statement (i : Instr) : Prop := (encode i).extractLsb' 20 4 = i.opClass.code

/-- Bits 23:20 of a word are the upper half of its opcode. -/
theorem classBits {op : Byte} {c : OpClass} (h : op.extractLsb' 4 4 = c.code) (a b : Byte) :
    (OpWord.pack op a b).extractLsb' 20 4 = c.code := by
  rw [← h]
  apply BitVec.eq_of_getLsbD_eq; intro i hi
  simp only [BitVec.getLsbD_extractLsb', OpWord.pack_getLsbD, hi]
  rw [if_neg (by omega), if_neg (by omega), show 20 + i - 16 = 4 + i by omega]

theorem initialise : Statement .initialise :=
  classBits (op := 0x01) (c := .host) (by decide) ..
theorem capture : Statement .capture :=
  classBits (op := 0x02) (c := .host) (by decide) ..
theorem getFrame (index : BitVec 16) : Statement (.getFrame index) :=
  classBits (op := 0x03) (c := .host) (by decide) ..
theorem configure : Statement .configure :=
  classBits (op := 0x04) (c := .host) (by decide) ..
theorem writeRegister (address value : Byte) : Statement (.writeRegister address value) :=
  classBits (op := 0x05) (c := .host) (by decide) ..
theorem start : Statement .start :=
  classBits (op := 0x10) (c := .transport) (by decide) ..
theorem stop : Statement .stop :=
  classBits (op := 0x11) (c := .transport) (by decide) ..
theorem txbyte (b : Byte) : Statement (.txbyte b) :=
  classBits (op := 0x12) (c := .transport) (by decide) ..
theorem waitw (pin : Pin) (level : Bool) : Statement (.waitw pin level) :=
  classBits (op := 0x20) (c := .capture) (by decide) ..
theorem sample : Statement .sample :=
  classBits (op := 0x21) (c := .capture) (by decide) ..
theorem irqMask : Statement .irqMask :=
  classBits (op := 0x22) (c := .capture) (by decide) ..
theorem irqRestore : Statement .irqRestore :=
  classBits (op := 0x23) (c := .capture) (by decide) ..
theorem delay : Statement .delay :=
  classBits (op := 0x24) (c := .capture) (by decide) ..

end Sys2Proof.Laws.ClassField
end

