-- ==== Sys2Proof/Laws/Step.lean ====
section
/-! SUPPORT. What one step can do, said once: the step of each unit in each of its states, and the inversion lemma
`step_next` from which a claim about every step follows by cases. -/

namespace Sys2Proof.Machine

variable {s t : State}

/-! ### The unit that steps, state by state -/

theorem unitStep_s1 (h : s.cbw.state = .s1) : s.unitStep = .next s.stepS1 := by
  simp [State.unitStep, State.cbwStep, CbwRegs.issues, exec, execStart, State.startStep, h]

theorem unitStep_s2 (h : s.cbw.state = .s2) : s.unitStep = .next s.stepS2 := by
  simp [State.unitStep, State.cbwStep, CbwRegs.issues, exec, execStart, State.startStep, h]

theorem unitStep_b1 (h : s.cbw.state = .b1) : s.unitStep = .next s.stepB1 := by
  simp [State.unitStep, State.cbwStep, CbwRegs.issues, exec, execTxbyte, State.enterTxbyte, CbwState.inTxbyte,
    State.txbyteStep, h]

theorem unitStep_b2 (h : s.cbw.state = .b2) : s.unitStep = .next s.stepB2 := by
  simp [State.unitStep, State.cbwStep, CbwRegs.issues, exec, execTxbyte, State.enterTxbyte, CbwState.inTxbyte,
    State.txbyteStep, h]

theorem unitStep_b3 (h : s.cbw.state = .b3) : s.unitStep = .next s.stepB3 := by
  simp [State.unitStep, State.cbwStep, CbwRegs.issues, exec, execTxbyte, State.enterTxbyte, CbwState.inTxbyte,
    State.txbyteStep, h]

theorem unitStep_a1 (h : s.cbw.state = .a1) : s.unitStep = .next s.stepA1 := by
  simp [State.unitStep, State.cbwStep, CbwRegs.issues, exec, execTxbyte, State.enterTxbyte, CbwState.inTxbyte,
    State.txbyteStep, h]

theorem unitStep_a2 (h : s.cbw.state = .a2) : s.unitStep = .next s.stepA2 := by
  simp [State.unitStep, State.cbwStep, CbwRegs.issues, exec, execTxbyte, State.enterTxbyte, CbwState.inTxbyte,
    State.txbyteStep, h]

theorem unitStep_a3 (h : s.cbw.state = .a3) : s.unitStep = .next s.stepA3 := by
  simp [State.unitStep, State.cbwStep, CbwRegs.issues, exec, execTxbyte, State.enterTxbyte, CbwState.inTxbyte,
    State.txbyteStep, h]

theorem unitStep_a4 (h : s.cbw.state = .a4) : s.unitStep = .next s.stepA4 := by
  simp [State.unitStep, State.cbwStep, CbwRegs.issues, exec, execTxbyte, State.enterTxbyte, CbwState.inTxbyte,
    State.txbyteStep, h]

theorem unitStep_p1 (h : s.cbw.state = .p1) : s.unitStep = .next s.stepP1 := by
  simp [State.unitStep, State.cbwStep, CbwRegs.issues, exec, execStop, State.stopStep, h]

theorem unitStep_p2 (h : s.cbw.state = .p2) : s.unitStep = .next s.stepP2 := by
  simp [State.unitStep, State.cbwStep, CbwRegs.issues, exec, execStop, State.stopStep, h]

theorem unitStep_p3 (h : s.cbw.state = .p3) : s.unitStep = .next s.stepP3 := by
  simp [State.unitStep, State.cbwStep, CbwRegs.issues, exec, execStop, State.stopStep, h]

theorem unitStep_fetch (hw : s.cbw.state = .idle) (h : s.cfg.state = .fetch) : s.unitStep = s.fetchEntry := by
  simp [State.unitStep, State.cfgStep, hw, h]

theorem unitStep_write (hw : s.cbw.state = .idle) (h : s.cfg.state = .write) : s.unitStep = .next s.judgeWrite := by
  simp [State.unitStep, State.cfgStep, hw, h]

theorem unitStep_settle (hw : s.cbw.state = .idle) (h : s.cfg.state = .settle) : s.unitStep = .next s.delayStep := by
  simp [State.unitStep, State.cfgStep, exec, execDelay, State.enterDelay, hw, h]

/-- The state after one poll of the engine. -/
def State.polled (s : State) (pin : Pin) (level : Bool) : State :=
  { s with fce := s.fce.poll pin level (s.snapshot.pin pin) }.nextTick

theorem unitStep_wait (hw : s.cbw.state = .idle) (hc : s.cfg.state = .idle) {pin : Pin} {level : Bool}
    (h : s.fce.state = waitState pin level) : s.unitStep = .next (s.polled pin level) := by
  cases pin <;> cases level <;>
    simp [State.unitStep, State.fceStep, FceRegs.issues, exec, execWaitw, State.polled, waitState, hw, hc, h]

theorem unitStep_sample (hw : s.cbw.state = .idle) (hc : s.cfg.state = .idle) (h : s.fce.state = .sample) :
    s.unitStep = execSample s := by
  simp [State.unitStep, State.fceStep, FceRegs.issues, exec, hw, hc, h]

theorem unitStep_complete (hw : s.cbw.state = .idle) (hc : s.cfg.state = .idle) (h : s.fce.state = .complete) :
    s.unitStep = .next s.completeCapture := by
  simp [State.unitStep, State.fceStep, FceRegs.issues, hw, hc, h]

theorem unitStep_idle (hw : s.cbw.state = .idle) (hc : s.cfg.state = .idle) (h : s.fce.state = .idle) :
    s.unitStep = .next s := by
  simp [State.unitStep, State.fceStep, FceRegs.issues, hw, hc, h]

/-- Every state of the engine but IDLE, SAMPLE and COMPLETE is a wait. -/
theorem FceState.wait_or (x : FceState) :
    x = .idle ∨ x = .sample ∨ x = .complete ∨ ∃ pin level, x = waitState pin level := by
  cases x
  · exact .inl rfl
  · exact .inr (.inr (.inr ⟨.vsync, false, rfl⟩))
  · exact .inr (.inr (.inr ⟨.vsync, true, rfl⟩))
  · exact .inr (.inr (.inr ⟨.hsync, false, rfl⟩))
  · exact .inr (.inr (.inr ⟨.hsync, true, rfl⟩))
  · exact .inr (.inr (.inr ⟨.pclk, true, rfl⟩))
  · exact .inr (.inr (.inr ⟨.pclk, false, rfl⟩))
  · exact .inr (.inl rfl)
  · exact .inr (.inr (.inl rfl))

/-! ### One move of the running unit -/

/-- All that a unit's step can do when it answers a next state (R35). -/
inductive UnitMove (s : State) : State → Prop where
  | s1 (h : s.cbw.state = .s1) : UnitMove s s.stepS1
  | s2 (h : s.cbw.state = .s2) : UnitMove s s.stepS2
  | b1 (h : s.cbw.state = .b1) : UnitMove s s.stepB1
  | b2 (h : s.cbw.state = .b2) : UnitMove s s.stepB2
  | b3 (h : s.cbw.state = .b3) : UnitMove s s.stepB3
  | a1 (h : s.cbw.state = .a1) : UnitMove s s.stepA1
  | a2 (h : s.cbw.state = .a2) : UnitMove s s.stepA2
  | a3 (h : s.cbw.state = .a3) : UnitMove s s.stepA3
  | a4 (h : s.cbw.state = .a4) : UnitMove s s.stepA4
  | p1 (h : s.cbw.state = .p1) : UnitMove s s.stepP1
  | p2 (h : s.cbw.state = .p2) : UnitMove s s.stepP2
  | p3 (h : s.cbw.state = .p3) : UnitMove s s.stepP3
  | finish (hw : s.cbw.state = .idle) (h : s.cfg.state = .fetch) (hi : s.cfg.idx.toNat = s.params.tableLen) :
      UnitMove s { s with cfg := { s.cfg with state := .idle }, flags := { s.flags with cfgOk := true } }
  | fetch (hw : s.cbw.state = .idle) (h : s.cfg.state = .fetch) (hi : s.cfg.idx.toNat ≠ s.params.tableLen)
      (e : RegEntry) (he : s.tableEntry? s.cfg.idx.toNat = some e) :
      UnitMove s { s.startWrite e.address e.value with cfg := { s.cfg with state := .write } }
  | judge (hw : s.cbw.state = .idle) (h : s.cfg.state = .write) : UnitMove s s.judgeWrite
  | settle (hw : s.cbw.state = .idle) (h : s.cfg.state = .settle) : UnitMove s s.delayStep
  | poll (hw : s.cbw.state = .idle) (hc : s.cfg.state = .idle) (pin : Pin) (level : Bool)
      (h : s.fce.state = waitState pin level) : UnitMove s (s.polled pin level)
  | sample (hw : s.cbw.state = .idle) (hc : s.cfg.state = .idle) (h : s.fce.state = .sample)
      (hb : s.fce.byteIndex.toNat < fbLen) : UnitMove s s.storeSample
  | complete (hw : s.cbw.state = .idle) (hc : s.cfg.state = .idle) (h : s.fce.state = .complete) :
      UnitMove s s.completeCapture
  | idle (hw : s.cbw.state = .idle) (hc : s.cfg.state = .idle) (h : s.fce.state = .idle) : UnitMove s s

theorem fetchEntry_next (h : s.fetchEntry = .next t) :
    (s.cfg.idx.toNat = s.params.tableLen ∧
      t = { s with cfg := { s.cfg with state := .idle }, flags := { s.flags with cfgOk := true } }) ∨
    (s.cfg.idx.toNat ≠ s.params.tableLen ∧ ∃ e, s.tableEntry? s.cfg.idx.toNat = some e ∧
      t = { s.startWrite e.address e.value with cfg := { s.cfg with state := .write } }) := by
  unfold State.fetchEntry at h
  split at h
  · exact .inl ⟨‹_›, by simpa using h.symm⟩
  · split at h
    · exact .inr ⟨‹_›, _, ‹_›, by simpa using h.symm⟩
    · cases h

/-- A unit's step that answers a next state is one of the moves. -/
theorem unitStep_next (h : s.unitStep = .next t) : UnitMove s t := by
  cases hw : s.cbw.state with
  | s1 => rw [unitStep_s1 hw] at h; cases h; exact .s1 hw
  | s2 => rw [unitStep_s2 hw] at h; cases h; exact .s2 hw
  | b1 => rw [unitStep_b1 hw] at h; cases h; exact .b1 hw
  | b2 => rw [unitStep_b2 hw] at h; cases h; exact .b2 hw
  | b3 => rw [unitStep_b3 hw] at h; cases h; exact .b3 hw
  | a1 => rw [unitStep_a1 hw] at h; cases h; exact .a1 hw
  | a2 => rw [unitStep_a2 hw] at h; cases h; exact .a2 hw
  | a3 => rw [unitStep_a3 hw] at h; cases h; exact .a3 hw
  | a4 => rw [unitStep_a4 hw] at h; cases h; exact .a4 hw
  | p1 => rw [unitStep_p1 hw] at h; cases h; exact .p1 hw
  | p2 => rw [unitStep_p2 hw] at h; cases h; exact .p2 hw
  | p3 => rw [unitStep_p3 hw] at h; cases h; exact .p3 hw
  | idle =>
    cases hc : s.cfg.state with
    | fetch =>
      rw [unitStep_fetch hw hc] at h
      obtain ⟨hi, rfl⟩ | ⟨hi, e, he, rfl⟩ := fetchEntry_next h
      · exact .finish hw hc hi
      · exact .fetch hw hc hi e he
    | write => rw [unitStep_write hw hc] at h; cases h; exact .judge hw hc
    | settle => rw [unitStep_settle hw hc] at h; cases h; exact .settle hw hc
    | idle =>
      obtain hf | hf | hf | ⟨pin, level, hf⟩ := s.fce.state.wait_or
      · rw [unitStep_idle hw hc hf] at h; cases h; exact .idle hw hc hf
      · rw [unitStep_sample hw hc hf, execSample] at h
        split at h
        · cases h; exact .sample hw hc hf ‹_›
        · cases h
      · rw [unitStep_complete hw hc hf] at h; cases h; exact .complete hw hc hf
      · rw [unitStep_wait hw hc hf] at h; cases h; exact .poll hw hc pin level hf

/-! ### The host's move -/

/-- All that a host operation can do when it answers a next state: it was accepted with BUSY = 0 (R230). -/
inductive HostMove (s : State) : State → Prop where
  | configure : HostMove s s.startConfigure
  | capture : HostMove s s.startCapture
  | getFrame (i : BitVec 16) (hi : i.toNat < fbLen) : HostMove s { s with rdata := s.readFrame i.toNat }
  | write (a v : Byte) : HostMove s (s.startWrite a v)

theorem exec_host_next {i : Instr} (hi : i.isHost = true) (h : exec i s = .next t) : s.busy = false ∧ HostMove s t := by
  cases hb : s.busy with
  | true =>
    cases i <;> simp [Instr.isHost, Instr.opClass] at hi <;>
      simp [exec, execInitialise, execCapture, execGetFrame, execConfigure, execWriteRegister, hb] at h
  | false =>
    refine ⟨rfl, ?_⟩
    cases i <;> simp [Instr.isHost, Instr.opClass] at hi
    · simp [exec, execInitialise, hb] at h; exact h ▸ .configure
    · simp [exec, execCapture, hb] at h; exact h ▸ .capture
    · simp only [exec, execGetFrame, hb] at h
      split at h
      · simp at *
      · split at h
        · cases h; exact .getFrame _ ‹_›
        · cases h
    · simp [exec, execConfigure, hb] at h; exact h ▸ .configure
    · simp [exec, execWriteRegister, hb] at h; exact h ▸ .write _ _

/-- All that a step can do when no internal word is issued by itself. -/
inductive StepMove (s : State) : State → Prop where
  | unit {t : State} (h : UnitMove s.nextMoves t) : StepMove s t
  | host {t : State} (hb : s.busy = false) (h : HostMove s.nextMoves t) : StepMove s t
  | reset {rest : List HostEvent} (h : s.env.host = .reset :: rest) : StepMove s s.applyReset.nextMoves

/-- With nothing scheduled, for the host or for the platform, their moves change nothing. -/
theorem nextMoves_of_nil (h : s.env.host = []) (hp : s.env.platform = []) : s.nextMoves = s := by
  cases s with | mk fce cbw cfg flags rdata fb sensor irqMask params env =>
  cases env
  simp only at h hp
  simp [State.nextMoves, Env.nextMoves, State.platformMask, h, hp]

theorem busy_eq_false : s.busy = false ↔ s.fce.state = .idle ∧ s.cfg.state = .idle ∧ s.cbw.state = .idle := by
  simp [State.busy, and_assoc]

theorem busy_eq_true : s.busy = true ↔ s.fce.state ≠ .idle ∨ s.cfg.state ≠ .idle ∨ s.cbw.state ≠ .idle := by
  simp only [State.busy, Bool.not_eq_true', Bool.and_eq_false_iff, decide_eq_false_iff_not, or_assoc, ne_eq]

@[simp] theorem busy_nextMoves : s.nextMoves.busy = s.busy := by cases s; rfl

theorem accepted_some {w : OpWord} {i : Instr} (h : s.accepted w = some i) : s.busy = false ∧ i.isHost = true := by
  unfold State.accepted at h
  split at h
  · cases h
  · split at h
    · split at h
      · cases h; exact ⟨by simpa using ‹¬s.busy = true›, ‹_›⟩
      · cases h
    · cases h

/-- A step that answers a next state is one of the moves (R10, R35, R230, R280). -/
theorem step_next (hi : s.env.issue = none) (h : step s = .next t) : StepMove s t := by
  unfold step State.machineStep at h
  rw [hi] at h
  simp only at h
  cases hh : s.env.host with
  | nil =>
    simp only [hh, List.head?_nil] at h
    exact .unit (unitStep_next h)
  | cons e rest =>
    simp only [hh, List.head?_cons] at h
    cases e with
    | quiet => exact .unit (unitStep_next h)
    | word w =>
      simp only [State.wordStep] at h
      split at h
      · obtain ⟨hb, hhost⟩ := accepted_some ‹_›
        exact .host hb (exec_host_next hhost h).2
      · exact .unit (unitStep_next h)
    | reset => simp only at h; cases h; exact .reset hh

/-! ### Runs -/

@[simp] theorem run_zero : run 0 s = .next s := rfl

theorem run_succ_of_next {n : Nat} (h : step s = .next t) : run (n + 1) s = run n t := by simp [run, h]

/-- A run goes on from where a shorter one ended. -/
theorem run_add {m n : Nat} (h : run m s = .next t) : run (m + n) s = run n t := by
  induction m generalizing s with
  | zero => simp [run] at h; simp [h]
  | succ m ih =>
    rw [Nat.succ_add]
    simp only [run] at h ⊢
    split at h
    · exact ih h
    · cases h
    · cases h

/-- While BUSY = 1 and no reset comes, a step is the running unit's: a presented word is refused and changes nothing (R230). -/
theorem step_of_busy (hu : s.undisturbed) (hb : s.busy = true) : step s = s.nextMoves.unitStep := by
  obtain ⟨hi, hh⟩ := hu
  unfold step State.machineStep
  rw [hi]
  cases hl : s.env.host with
  | nil => rfl
  | cons e rest =>
    rw [hl] at hh
    cases e with
    | quiet => rfl
    | word w => simp [State.wordStep, State.accepted, hb]
    | reset => exact absurd rfl (hh .reset (by simp))

theorem undisturbed_nextMoves (hu : s.undisturbed) : s.nextMoves.undisturbed :=
  ⟨hu.1, fun e he => hu.2 e (List.mem_of_mem_tail he)⟩

end Sys2Proof.Machine
end

