-- ==== Sys2Proof/Tests/Slice0.lean ====
section
/-! SUPPORT. Tests whose expected results come from 95_test_vectors.md (the vector is named), and for every obligation with
hypotheses a witness that meets them. -/

namespace Sys2Proof.Tests

open Sys2Proof.Machine

/-! ### Small states -/

/-- An idle block with the vectors' parameters: DEV_ADDR_BYTE 0x42, table T3, SETTLE_TICKS 2. -/
def block : State :=
  { State.reset with
    params := ⟨[⟨0x12, 0x80⟩, ⟨0x11, 0x01⟩, ⟨0x3A, 0x04⟩], 0x42, 2, false⟩
    irqMask := .mask 7 }

/-- The writer of `block` in state `c`, sending byte 0 of WRITE_REGISTER 0x12, 0x80. -/
def writer (c : CbwState) (scl sdaM : Bool) : State :=
  { block with cbw := { block.cbw with
      state := c, wrAddr := 0x12, wrVal := 0x80, sh := 0x42, bitcnt := 7, ok := true, scl := scl, sdaM := sdaM } }

/-- The configurator of `block` in state `c` at entry `idx`. -/
def configurator (c : CfgState) (idx : BitVec 16) (count : Nat) : State :=
  { block with cfg := { block.cfg with state := c, idx := idx, settleCnt := count } }

/-- The engine of `block` in state `f`, with interrupts masked. -/
def engine (f : FceState) (line : BitVec 7) (column : BitVec 8) (edge : BitVec 2) (byteIndex : BitVec 16) : State :=
  { block with
    fce := { block.fce with
      state := f, line := line, column := column, edge := edge, byteIndex := byteIndex, irqSaved := .mask 7 }
    irqMask := .allMasked
    flags := { block.flags with irqMasked := true } }

/-- A snapshot: VSYNC, HSYNC, PCLK and the byte on the data lines. -/
def shows (v h p : Bool) (b : Byte) : Snapshot := ⟨v, h, p, b.extractLsb' 0 7, b.getLsbD 7⟩

/-- `s` with the snapshots of the coming ticks listed. -/
def withPins (s : State) (xs : List Snapshot) : State := { s with env := { s.env with pins := xs } }

/-- `s` with the sensor's contributions to the coming acknowledge bits listed: `false` is A, `true` is N. -/
def withAcks (s : State) (xs : List Bool) : State := { s with env := { s.env with acks := xs } }

/-- `s` with the host's coming moves listed. -/
def withHost (s : State) (xs : List HostEvent) : State := { s with env := { s.env with host := xs } }

/-- `s` with the platform's coming moves listed. -/
def withPlatform (s : State) (xs : List PlatformMove) : State := { s with env := { s.env with platform := xs } }

/-- An outcome is a next state for which `p` holds. -/
def nextIs (o : Host.Outcome State Fault Refusal) (p : State → Bool) : Bool :=
  match o with
  | .next t => p t
  | .fault _ | .refused _ => false

/-! ### Well-formedness and decoding -/

/-- V1: 0x039600 is reserved, 0x0395FF is the largest legal index. -/
theorem test_wellFormed_refuses_frame_38400 : (Instr.getFrame 38400).wellFormed = false := by decide
theorem test_wellFormed_takes_frame_38399 : (Instr.getFrame 38399).wellFormed = true := by decide

/-- V1: a host operation, `{0x03, 0x01, 0x3E}`. -/
theorem test_decode_getFrame : decode 0b000000110000000100111110 = .ok (.getFrame 318) := by decide
theorem test_decode_initialise : decode 0b000000010000000000000000 = .ok .initialise := by decide
theorem test_decode_capture : decode 0b000000100000000000000000 = .ok .capture := by decide
theorem test_decode_configure : decode 0b000001000000000000000000 = .ok .configure := by decide
theorem test_decode_writeRegister : decode 0b000001010001001010000000 = .ok (.writeRegister 0x12 0x80) := by decide

/-- V1: transport operations. -/
theorem test_decode_start : decode 0b000100000000000000000000 = .ok .start := by decide
theorem test_decode_stop : decode 0b000100010000000000000000 = .ok .stop := by decide
theorem test_decode_txbyte : decode 0b000100100000000010100101 = .ok (.txbyte 0xA5) := by decide

/-- V1: capture operations. -/
theorem test_decode_waitw : decode 0b001000000000001000000001 = .ok (.waitw .pclk true) := by decide
theorem test_decode_sample : decode 0b001000010000000000000000 = .ok .sample := by decide
theorem test_decode_irqMask : decode 0b001000100000000000000000 = .ok .irqMask := by decide
theorem test_decode_irqRestore : decode 0b001000110000000000000000 = .ok .irqRestore := by decide
theorem test_decode_delay : decode 0b001001000000000000000000 = .ok .delay := by decide

/-- V1: reserved words. -/
theorem test_decode_reserved : [0x010001, 0x020100, 0x039600, 0x03FFFF, 0x060000, 0x120100, 0x130000, 0x200300, 0x200002,
    0xFF0000].all (fun w => decide (decode? w = none)) = true := by decide

/-- V1, as the opcode table numbers the bits. -/
theorem test_decodeTableWord : decodeTableWord 24 0x051280 = some (.writeRegister 0x12 0x80) := by decide

/-- V2. -/
theorem test_pix8 : (shows false false false 0xBC).pix8 = 0xBC ∧ (⟨false, false, false, 0x78, true⟩ : Snapshot).pix8 = 0xF8 ∧
    (⟨false, false, false, 0x7F, false⟩ : Snapshot).pix8 = 0x7F := by decide

/-- R98's layout on V12's first entry: the address 0x12 in bits 15:8, the value 0x80 in bits 7:0; R62: the address at the even
offset. -/
theorem test_table_entry : (⟨0x12, 0x80⟩ : RegEntry).word = 0x1280 ∧ RegEntry.ofWord 0x1280 = ⟨0x12, 0x80⟩ ∧
    block.tableByte? 0 = some 0x12 ∧ block.tableByte? 1 = some 0x80 ∧ block.tableByte? 5 = some 0x04 ∧
    block.tableByte? 6 = none := by decide

/-- V3. -/
theorem test_rasterAddress : rasterAddress 0 159 = 318 ∧ rasterAddress 59 80 = 19040 ∧ rasterAddress 119 159 = 38398 := by
  decide

/-! ### STATUS and reset -/

/-- V4: after a failure at index 1, and a capture in progress after a successful INITIALIZE. -/
theorem test_status : ({ block with
      flags := { block.flags with cfgErr := true }, cfg := { block.cfg with errIndex := 1 } } : State).status = 0x00010008 ∧
    ({ block with
      flags := { block.flags with cfgOk := true, wrOk := true, irqMasked := true }
      fce := { block.fce with state := .vsWhileLow } } : State).status = 0x00000035 := by decide

/-- V38: a reset during a capture; the platform's mask stays all-masked. -/
theorem test_reset_event : nextIs (step (withHost (engine .vsWhileLow 0 0 0 0) [.reset])) (fun t =>
    decide (t.status = 0) && decide (t.fce.state = .idle) && t.cbw.scl && t.cbw.sdaM && decide (t.irqMask = .allMasked)) =
    true := by decide

/-- R281, U21: a platform that changes its mask at the reset of a capture has it changed. -/
theorem test_reset_event_platform :
    nextIs (step (withPlatform (withHost (engine .vsWhileLow 0 0 0 0) [.reset]) [.setMask (.mask 3)]))
      (fun t => decide (t.irqMask = .mask 3) && decide (t.status = 0)) = true := by decide

/-- R9, R41: the platform changes its mask beside the idle block; R200's masking holds during a capture. -/
theorem test_platform_moves :
    nextIs (step (withPlatform block [.setMask (.mask 3), .leave]))
      (fun t => decide (t.irqMask = .mask 3) && decide (t.env.platform = [.leave])) = true ∧
    nextIs (step (withPlatform (engine .complete 120 160 0 38400) [.setMask (.mask 3)]))
      (fun t => decide (t.irqMask = .mask 7)) = true := by decide

/-! ### Host operations -/

/-- V17: STATUS right after CONFIGURE is accepted following a failure at index 2. -/
theorem test_configure_after_failure : nextIs (exec .configure { block with
      flags := { block.flags with cfgErr := true }, cfg := { block.cfg with errIndex := 2, idx := 2 } })
    (fun t => decide (t.status = 0x00020001) && decide (t.cfg.idx = 0)) = true := by decide

/-- V12, R231: STATUS right after acceptance. -/
theorem test_initialise_is_configure : nextIs (exec .initialise block)
    (fun t => decide (t.cfg.state = .fetch) && decide (t.status = 0x00000001)) = true := by decide

/-- V36, P3: STATUS after CAPTURE is accepted, and the saved mask state. -/
theorem test_capture : nextIs (step (withHost block [.word 0x020000]))
    (fun t => decide (t.status = 0x00000021) && decide (t.fce.irqSaved = .mask 7) && decide (t.irqMask = .allMasked)) =
    true := by decide

/-- V36: GET_FRAME presented while a capture runs changes nothing. -/
theorem test_getFrame_refused_while_busy : exec (.getFrame 0) (engine .vsWhileLow 0 0 0 0) = .refused .busy := rfl

/-- V37: the stored byte comes back. -/
theorem test_getFrame : nextIs (exec (.getFrame 318) { block with fb := [(0, 0x03), (318, 0xB5)] })
    (fun t => decide (t.rdata = 0xB5)) = true := by decide

/-- V11's second write, R143. -/
theorem test_writeRegister : nextIs (exec (.writeRegister 0xFF 0x00) block)
    (fun t => decide (t.cbw.state = .s1) && decide (t.cbw.wrAddr = 0xFF) && t.cbw.ok && t.cbw.scl && t.cbw.sdaM) = true := by
  decide

/-! ### The control bus -/

/-- V5's pin string of SCL. -/
theorem test_writePins_scl : (writePins [0x42, 0x12, 0x80]).map Prod.fst = (List.range 89).map
    (0b10010010010010010010010010011001001001001001001001001001100100100100100100100100100110011#89).getMsbD := by decide

/-- V5's pin string of SDA_M, and V7's of the write cut short after its first byte. -/
theorem test_writePins_sda : (writePins [0x42, 0x12, 0x80]).map Prod.snd = (List.range 89).map
      (0b00000111000000000000111000111100000000011100000011100011111110000000000000000000001111001#89).getMsbD ∧
    (writePins [0x42]).map Prod.snd = (List.range 33).map (0b000001110000000000001110001111001#33).getMsbD := by decide

/-- V5, V7: the primitives and the number of steps. -/
theorem test_writePrimitives : (writePrimitives [0x42, 0x12, 0x80]).length = 89 ∧
    [1, 2, 29, 30, 57, 58, 85, 86].map (fun n => (writePrimitives [0x42, 0x12, 0x80])[n]?) =
      [some .start, some (.txbyte 0x42), some (.txbyte 0x42), some (.txbyte 0x12), some (.txbyte 0x12),
        some (.txbyte 0x80), some (.txbyte 0x80), some .stop] ∧
    (writePrimitives [0x42, 0x12]).length = 61 ∧ (writePrimitives [0x42]).length = 33 ∧
    (writePins [0x42, 0x12, 0x80]).length = 89 :=
  ⟨rfl, rfl, rfl, rfl, rfl⟩

/-- V9: S1 gives (1,0), S2 gives (0,0). -/
theorem test_start : nextIs (exec .start (writer .s1 true true)) (fun t => t.cbw.scl && !t.cbw.sdaM) = true ∧
    nextIs (exec .start (writer .s2 true false)) (fun t =>
      !t.cbw.scl && !t.cbw.sdaM && decide (t.cbw.sh = 0x42) && decide (t.cbw.bitcnt = 7)) = true := by decide

/-- V9: P3 gives (1,1); V6: the result of a write with a missing acknowledge is 0. -/
theorem test_stop : nextIs (exec .stop (writer .p1 false true)) (fun t => !t.cbw.scl && !t.cbw.sdaM) = true ∧
    nextIs (exec .stop { writer .p3 true false with
        cbw := { (writer .p3 true false).cbw with ok := false }, flags := { block.flags with wrOk := true } })
      (fun t => t.cbw.scl && t.cbw.sdaM && !t.flags.wrOk && decide (t.cbw.state = .idle)) = true := by decide

/-- V8: 0x42 has bit 6 set: its second bit is 1 on the line. -/
theorem test_txbyte_bit : nextIs (exec (.txbyte 0x42)
    { writer .b1 false false with cbw := { (writer .b1 false false).cbw with bitcnt := 6 } })
    (fun t => t.cbw.sdaM && !t.cbw.scl && decide (t.cbw.state = .b2)) = true := by decide

/-- V6: a draw N leaves the line high and clears `ok`. -/
theorem test_txbyte_nack : nextIs (exec (.txbyte 0x42) (withAcks (writer .a3 true true) [true, false]))
    (fun t => !t.cbw.ack && !t.cbw.ok && decide (t.env.acks = [false])) = true := by decide

/-! ### The capture engine -/

/-- V20: VSYNC = 0 stays, VSYNC = 1 ends the wait. -/
theorem test_waitw : nextIs (step (withPins (engine .vsWhileLow 0 0 0 0) [shows false false false 0]))
      (fun t => decide (t.fce.state = .vsWhileLow) && decide (t.env.tick = 1)) = true ∧
    nextIs (step (withPins (engine .vsWhileLow 0 0 0 0) [shows true false false 0]))
      (fun t => decide (t.fce.state = .vsWhileHigh)) = true := by decide

/-- V22, tick 14: the third edge is not sampled. -/
theorem test_waitw_unsampled_edge : nextIs (step (withPins (engine .pkWhileLow 0 0 2 2) [shows false false true 0xEE]))
    (fun t => decide (t.fce.state = .pkWhileHigh) && decide (t.fce.edge = 3) && decide (t.fce.byteIndex = 2)) = true := by
  decide

/-- V23, tick 24: FB[3] <- 0xF8. -/
theorem test_sample : nextIs (step (withPins (engine .sample 0 1 1 3) [shows false false true 0xF8]))
    (fun t => decide (t.fb = [(3, 0xF8)]) && decide (t.fce.byteIndex = 4) && decide (t.fce.edge = 2)) = true := by decide

/-- There is no address 38400 (R61). -/
theorem test_sample_outside : exec .sample (engine .sample 0 0 0 38400) = .fault .noFrameAddress := rfl

/-- R200's worked example, E being `mask 7`. -/
theorem test_irqMask : nextIs (exec .irqMask block) (fun t =>
    decide (t.fce.irqSaved = .mask 7) && decide (t.irqMask = .allMasked) && t.flags.irqMasked) = true := by decide

/-- R201's worked example. -/
theorem test_irqRestore : nextIs (exec .irqRestore (engine .complete 120 160 0 38400))
    (fun t => decide (t.irqMask = .mask 7) && !t.flags.irqMasked) = true := by decide

/-- V21, the last three rows. -/
theorem test_advance : (engine .pkWhileLow 0 159 3 320).fce.advance.state = .hsWhileLow ∧
    (engine .pkWhileLow 118 159 3 38080).fce.advance.line = 119 ∧
    (engine .pkWhileLow 119 159 3 38400).fce.advance.state = .complete := by decide

/-! ### The configurator -/

/-- V19: the third settle step goes to the next entry. -/
theorem test_delay : nextIs (exec .delay (configurator .settle 0 3)) (fun t => decide (t.cfg.settleCnt = 2)) = true ∧
    nextIs (exec .delay (configurator .settle 0 1))
      (fun t => decide (t.cfg.settleCnt = 0) && decide (t.cfg.idx = 1) && decide (t.cfg.state = .fetch)) = true := by decide

/-- V14: a failed write of entry 0. -/
theorem test_judge_failure : nextIs (step (configurator .write 0 0))
    (fun t => decide (t.status = 0x00000008) && decide (t.busFailure? = some 0)) = true := by decide

/-- V12: entry 2 of T3 is written to register 0x3A. -/
theorem test_fetch : nextIs (step (configurator .fetch 2 0))
    (fun t => decide (t.cbw.wrAddr = 0x3A) && decide (t.cbw.wrVal = 0x04) && decide (t.cfg.state = .write)) = true := by decide

/-! ### Witnesses: concrete states and operands that meet the hypotheses of each obligation -/

theorem undisturbed_of_silent {s : State} (hi : s.env.issue = none) (hh : s.env.host = []) : s.undisturbed :=
  ⟨hi, by simp [hh]⟩

theorem memoryInv_of_empty {s : State} (hf : s.fb = []) (hs : s.sensor = []) : s.memoryInv := by
  simp [State.memoryInv, hf, hs]

theorem witness_DecodeOfEncode : (Instr.getFrame 38399).wellFormed = true ∧ (Instr.waitw .pclk true).wellFormed = true := by
  decide

theorem witness_EncodeOfDecode : decode 0x0395FF = .ok (.getFrame 38399) := by decide

theorem witness_TableRows : (⟨"WAITW", 0xFFFCFE, 0x200000, .pinCode⟩ : OpRow) ∈ opTable ∧
    (⟨"WAITW", 0xFFFCFE, 0x200000, .pinCode⟩ : OpRow).selects 0x200201 = true ∧
    decode 0x200201 = .ok (.waitw .pclk true) := by decide

/-- The word 0x0395FF presented to the idle block. -/
theorem witness_StepRunsTheAcceptedWord : (withHost block [.word 0x0395FF]).env.issue = none ∧
    (withHost block [.word 0x0395FF]).env.host = [.word 0x0395FF] ∧ (withHost block [.word 0x0395FF]).busy = false ∧
    decode 0x0395FF = .ok (.getFrame 38399) ∧ (Instr.getFrame 38399).isHost = true := by decide

/-- One state for each unit that can run. -/
theorem witness_StepRunsTheIssuedOperation :
    ((writer .b1 false true).undisturbed ∧ (writer .b1 false true).cbw.issues = some (.txbyte 0x42) ∧
      (writer .b1 false true).busy = true) ∧
    ((configurator .settle 0 2).undisturbed ∧ (configurator .settle 0 2).cbw.state = .idle ∧
      (configurator .settle 0 2).cfg.state = .settle ∧ (configurator .settle 0 2).busy = true) ∧
    ((engine .sample 0 0 0 0).undisturbed ∧ (engine .sample 0 0 0 0).cbw.state = .idle ∧
      (engine .sample 0 0 0 0).cfg.state = .idle ∧ (engine .sample 0 0 0 0).fce.issues = some .sample ∧
      (engine .sample 0 0 0 0).busy = true) :=
  ⟨⟨undisturbed_of_silent rfl rfl, by decide, by decide⟩, ⟨undisturbed_of_silent rfl rfl, by decide, by decide, by decide⟩,
    ⟨undisturbed_of_silent rfl rfl, by decide, by decide, by decide, by decide⟩⟩

theorem witness_PlacedWordIsRunNext : (Instr.writeRegister 0xFF 0xFF).wellFormed = true ∧
    (Instr.writeRegister 0xFF 0xFF).isHost = true ∧ (Instr.delay).wellFormed = true ∧ (Instr.delay).isHost = false := by
  decide

/-- A legal word while BUSY = 1, and an internal word presented to the idle block. -/
theorem witness_RefusedWordChangesNothing :
    ((withHost (engine .vsWhileLow 0 0 0 0) [.word 0x020000]).env.issue = none ∧
      (withHost (engine .vsWhileLow 0 0 0 0) [.word 0x020000]).env.host = [.word 0x020000] ∧
      (withHost (engine .vsWhileLow 0 0 0 0) [.word 0x020000]).busy = true) ∧
    ((withHost block [.word 0x210000]).env.issue = none ∧ (withHost block [.word 0x210000]).env.host = [.word 0x210000] ∧
      (withHost block [.word 0x210000]).busy = false ∧ ∀ i, decode 0x210000 = .ok i → i.isHost = false) := by
  refine ⟨by decide, by decide, by decide, by decide, fun i h => ?_⟩
  cases (show decode 0x210000 = .ok .sample by decide).symm.trans h
  decide

theorem witness_HostOperationsAreRefusedWhileBusy :
    (writer .s1 true true).busy = true ∧ (Instr.getFrame 38400).isHost = true := by decide

theorem witness_ResetEvent : (withHost (engine .vsWhileLow 0 0 0 0) [.reset]).env.issue = none ∧
    (withHost (engine .vsWhileLow 0 0 0 0) [.reset]).env.host = [.reset] ∧
    (withPlatform block [.setMask (.mask 3)]).env.platform.head? = some (.setMask (.mask 3)) ∧
    ∀ m, (withPlatform block [.leave]).env.platform.head? ≠ some (.setMask m) :=
  ⟨rfl, rfl, rfl, fun _ h => by cases h⟩

/-- The idle block: ConfigureAndInitializeStart, CaptureStarts, GetFrameReadsOneByte, WriteRegisterStarts. -/
theorem witness_idle_block : block.busy = false := by decide

/-- Both sides of the last frame-buffer address; a written and an unwritten one. -/
theorem witness_GetFrameReadsOneByte : (38399 : BitVec 16).toNat ≤ 38399 ∧ 38399 < (38400 : BitVec 16).toNat ∧
    Memory.read? [(318, 0xB5)] 318 = some 0xB5 ∧ Memory.read? [(318, 0xB5)] 38399 = none := by decide

theorem witness_GetFrameIsRepeatable : ∃ t, exec (.getFrame 38399) block = .next t := ⟨_, rfl⟩

theorem witness_StartSteps : (writer .s1 true true).cbw.state = .s1 ∧ (writer .s2 true false).cbw.state = .s2 := by decide

/-- B3 with the last bit sent and with one bit to go. -/
theorem witness_TxbyteDataSteps : (writer .b1 false true).cbw.state = .b1 ∧ (writer .b2 false true).cbw.state = .b2 ∧
    (writer .b3 true true).cbw.state = .b3 ∧ 0 < (1 : BitVec 3).toNat ∧
    ({ (writer .b3 true true).cbw with bitcnt := 0 } : CbwRegs).bitcnt = 0 := by decide

/-- A4 after each byte; a byte that was not acknowledged with SCCB_ABORT_ON_NACK = true. -/
theorem witness_TxbyteAcknowledgeSteps : (writer .a1 false true).cbw.state = .a1 ∧ (writer .a2 false true).cbw.state = .a2 ∧
    (writer .a3 true true).cbw.state = .a3 ∧ (writer .a4 true true).cbw.state = .a4 ∧
    (writer .a4 true true).cbw.bytesel = 0 ∧
    ¬ ((writer .a4 true true).params.abortOnNack = true ∧ (writer .a4 true true).cbw.ok = false) ∧
    ({ (writer .a4 true true).cbw with bytesel := 1 } : CbwRegs).bytesel = 1 ∧
    ({ (writer .a4 true true).cbw with bytesel := 2 } : CbwRegs).bytesel = 2 ∧
    ({ block.params with abortOnNack := true } : Params).abortOnNack = true ∧
    ({ (writer .a4 true true).cbw with ok := false } : CbwRegs).ok = false := by decide

theorem witness_StopSteps : (writer .p1 false true).cbw.state = .p1 ∧ (writer .p2 false false).cbw.state = .p2 ∧
    (writer .p3 true false).cbw.state = .p3 := by decide

theorem witness_SensorRecord : (writer .p3 true false).cbw.state = .p3 ∧ (writer .p3 true false).cbw.ok = true ∧
    ({ (writer .p3 true false).cbw with bytesel := 2 } : CbwRegs).bytesel = 2 ∧
    ({ (writer .p3 true false).cbw with ok := false } : CbwRegs).ok = false ∧ 0x11 ≠ (0x12 : Byte).toNat := by decide

/-- The idle block, where no internal operation is in its place, and a byte that is not the one being sent. -/
theorem witness_OutOfPlace : block.cbw.state ≠ .s2 ∧ block.cbw.state.inTxbyte = false ∧ (writer .b3 true true).cbw.sh ≠ 0x43 ∧
    block.cbw.state ≠ .p2 ∧ block.cbw.state ≠ .p3 ∧ block.cfg.state ≠ .settle ∧ 1 < block.params.settleTicks ∧
    ({ block.params with settleTicks := 1 } : Params).settleTicks = 1 ∧
    ((withPins block [shows false true false 0]).env.snapshotAt 0).pin .hsync = true := by decide

theorem witness_StartAndStopWaveforms :
    ((writer .s1 true true).undisturbed ∧ (writer .s1 true true).cbw.state = .s1 ∧ (writer .s1 true true).cbw.scl = true ∧
      (writer .s1 true true).cbw.sdaM = true) ∧
    ((writer .p1 false true).undisturbed ∧ (writer .p1 false true).cbw.state = .p1 ∧ (writer .p1 false true).cbw.scl = false ∧
      (writer .p1 false true).cbw.sdaM = true) :=
  ⟨⟨undisturbed_of_silent rfl rfl, by decide, by decide, by decide⟩,
    ⟨undisturbed_of_silent rfl rfl, by decide, by decide, by decide⟩⟩

theorem witness_TxbyteWaveform : (writer .b1 false true).undisturbed ∧ (writer .b1 false true).cbw.state = .b1 ∧
    (writer .b1 false true).cbw.bitcnt = 7 ∧ (writer .b1 false true).cbw.scl = false :=
  ⟨undisturbed_of_silent rfl rfl, by decide, by decide, by decide⟩

theorem witness_WriteTakes89Steps : block.undisturbed ∧ block.params.abortOnNack = false ∧
    (block.startWrite 0x12 0x80).cbw.scl = true ∧ (block.startWrite 0x12 0x80).cbw.sdaM = true ∧
    (writePrimitives [0x42, 0x12, 0x80])[88]? = some .stop ∧ (writePins [0x42, 0x12, 0x80])[88]? = some (true, true) :=
  ⟨undisturbed_of_silent rfl rfl, rfl, rfl, rfl, rfl, rfl⟩

/-- `block` with SCCB_ABORT_ON_NACK = true. -/
def aborting : State := { block with params := { block.params with abortOnNack := true } }

/-- The draws N; A N; A A. -/
theorem witness_WriteIsCutShort : aborting.undisturbed ∧ aborting.params.abortOnNack = true ∧
    (withAcks aborting [true]).env.sdaAt 0 = true ∧ (withAcks aborting [false, true]).env.sdaAt 0 = false ∧
    (withAcks aborting [false, true]).env.sdaAt 1 = true ∧ (withAcks aborting [false, false]).env.sdaAt 1 = false :=
  ⟨undisturbed_of_silent rfl rfl, rfl, rfl, rfl, rfl, rfl⟩

theorem witness_DataLineChanges : ∃ t, (writer .s1 true true).undisturbed ∧ (writer .s1 true true).cbw.pinsInv ∧
    step (writer .s1 true true) = .next t ∧ t.cbw.sdaM ≠ (writer .s1 true true).cbw.sdaM ∧
    (writer .s1 true true).cbw.scl = true :=
  ⟨_, undisturbed_of_silent rfl rfl, ⟨rfl, rfl⟩, rfl, by decide, rfl⟩

/-- A step that changes SCL and one that changes SDA_M. -/
theorem witness_PinsAreWritten : ∃ t u, (writer .b2 false true).undisturbed ∧ step (writer .b2 false true) = .next t ∧
    t.cbw.scl ≠ (writer .b2 false true).cbw.scl ∧ (writer .a1 false false).undisturbed ∧
    step (writer .a1 false false) = .next u ∧ u.cbw.sdaM ≠ (writer .a1 false false).cbw.sdaM :=
  ⟨_, _, undisturbed_of_silent rfl rfl, rfl, by decide, undisturbed_of_silent rfl rfl, rfl, by decide⟩

/-- An engine that waits for VSYNC and sees it low at this tick and high at the next: WaitStaysWhileThePinReadsTheLevel,
WaitLastsUntilThePinChanges and StuckLineHangsTheCapture (for one tick). -/
def waiting : State := withPins (engine .vsWhileLow 0 0 0 0) [shows false false false 0, shows true false false 0]

theorem witness_waits : waiting.undisturbed ∧ waiting.cbw.state = .idle ∧ waiting.cfg.state = .idle ∧
    waiting.captureInv ∧ waiting.fce.state = waitState .vsync false ∧ (∀ k, k < 1 → (waiting.env.snapshotAt k).pin .vsync = false) ∧
    (waiting.env.snapshotAt 1).pin .vsync = !false :=
  ⟨undisturbed_of_silent rfl rfl, rfl, rfl, ⟨rfl, rfl, rfl⟩, rfl, by decide, rfl⟩

theorem witness_VsyncWaits : (engine .vsWhileLow 0 0 0 0).fce.state = .vsWhileLow ∧
    (engine .vsWhileHigh 0 0 0 0).fce.state = .vsWhileHigh ∧
    ((withPins (engine .vsWhileHigh 0 0 0 0) [shows true false false 0]).env.snapshotAt 0).vsync = true ∧
    ((withPins (engine .vsWhileLow 0 0 0 0) [shows false false false 0]).env.snapshotAt 0).vsync = false := by decide

theorem witness_HsyncWaits : (engine .hsWhileLow 0 0 0 0).fce.state = .hsWhileLow ∧
    (engine .hsWhileHigh 0 0 0 0).fce.state = .hsWhileHigh ∧
    ((withPins (engine .hsWhileHigh 0 0 0 0) [shows false true false 0]).env.snapshotAt 0).hsync = true ∧
    ((withPins (engine .hsWhileLow 0 0 0 0) [shows false false false 0]).env.snapshotAt 0).hsync = false ∧
    (engine .hsWhileHigh 0 0 0 0).fce.pulse = false ∧
    ({ (engine .hsWhileHigh 0 0 0 0).fce with pulse := true } : FceRegs).pulse = true := by decide

/-- Edges 1 and 2, the last sampled and the first unsampled. -/
theorem witness_PclkWaits : (engine .pkWhileHigh 0 0 1 1).fce.state = .pkWhileHigh ∧
    (engine .pkWhileLow 0 0 1 1).fce.state = .pkWhileLow ∧
    ((withPins (engine .pkWhileLow 0 0 1 1) [shows false false false 0]).env.snapshotAt 0).pclk = false ∧
    ((withPins (engine .pkWhileLow 0 0 1 1) [shows false false true 0]).env.snapshotAt 0).pclk = true ∧
    (engine .pkWhileLow 0 0 1 1).fce.edge.toNat < 2 ∧ 2 ≤ (engine .pkWhileLow 0 0 2 2).fce.edge.toNat := by decide

theorem witness_SampleStoresTheByte : (engine .sample 119 159 1 38399).fce.byteIndex.toNat < 38400 ∧
    0 ≠ (engine .sample 119 159 1 38399).fce.byteIndex.toNat := by decide

/-- Each clause at its boundary. -/
theorem witness_AdvanceMovesTheCursor : (engine .pkWhileLow 119 159 3 38400).fce.line.toNat = 119 ∧
    (engine .pkWhileLow 119 159 3 38400).fce.column.toNat = 159 ∧ (engine .pkWhileLow 119 159 3 38400).fce.edge.toNat = 3 ∧
    (engine .pkWhileLow 118 158 2 0).fce.edge.toNat < 3 ∧ (engine .pkWhileLow 118 158 2 0).fce.column.toNat < 159 ∧
    (engine .pkWhileLow 118 158 2 0).fce.line.toNat < 119 := by decide

theorem witness_CompleteEndsTheCapture : (engine .complete 120 160 0 38400).undisturbed ∧
    (engine .complete 120 160 0 38400).cbw.state = .idle ∧ (engine .complete 120 160 0 38400).cfg.state = .idle ∧
    (engine .complete 120 160 0 38400).fce.state = .complete :=
  ⟨undisturbed_of_silent rfl rfl, rfl, rfl, rfl⟩

/-- The last entry, and the end of the table. -/
theorem witness_FetchStartsTheWrite : (configurator .fetch 2 0).undisturbed ∧ (configurator .fetch 2 0).cbw.state = .idle ∧
    (configurator .fetch 2 0).cfg.state = .fetch ∧
    (configurator .fetch 2 0).cfg.idx.toNat ≠ (configurator .fetch 2 0).params.tableLen ∧
    (configurator .fetch 2 0).params.table[2]? = some ⟨0x3A, 0x04⟩ ∧
    (configurator .fetch 2 0).readTable? 2 = some 0x3A04 ∧
    (configurator .fetch 3 0).cfg.idx.toNat = (configurator .fetch 3 0).params.tableLen :=
  ⟨undisturbed_of_silent rfl rfl, rfl, rfl, by decide, rfl, rfl, rfl⟩

theorem witness_WriteResultIsJudged : (configurator .write 0 0).undisturbed ∧ (configurator .write 0 0).cbw.state = .idle ∧
    (configurator .write 0 0).cfg.state = .write ∧ (configurator .write 0 0).flags.wrOk = false ∧
    ({ block.flags with wrOk := true } : Flags).wrOk = true :=
  ⟨undisturbed_of_silent rfl rfl, rfl, rfl, rfl, rfl⟩

/-- DelayCountsDown at counts 1 and 2, and SettleDelayLastsItsCount. -/
theorem witness_settle_delay : (configurator .settle 0 1).undisturbed ∧ (configurator .settle 0 1).cbw.state = .idle ∧
    (configurator .settle 0 1).cfg.state = .settle ∧ (configurator .settle 0 1).cfg.settleCnt = 1 ∧
    (configurator .settle 0 2).cfg.state = .settle ∧ 1 < (configurator .settle 0 2).cfg.settleCnt :=
  ⟨undisturbed_of_silent rfl rfl, rfl, rfl, rfl, rfl, by decide⟩

/-- Nine draws A. -/
theorem witness_AcknowledgedConfigure : (withAcks block (List.replicate 9 false)).undisturbed ∧
    (withAcks block (List.replicate 9 false)).busy = false ∧ (withAcks block (List.replicate 9 false)).cbw.pinsInv ∧
    (withAcks block (List.replicate 9 false)).params.wf ∧
    ∀ k, k < 3 * (withAcks block (List.replicate 9 false)).params.tableLen →
      (withAcks block (List.replicate 9 false)).env.sdaAt k = false :=
  ⟨undisturbed_of_silent rfl rfl, rfl, ⟨rfl, rfl⟩, by decide, by decide⟩

/-- V13's draws, A A A A A N: the failure at entry 1; V14's draw N: the failure at entry 0; and with SCCB_ABORT_ON_NACK = true
entry 0's first, second and third byte. -/
theorem witness_ConfigureStops : (withAcks block [false, false, false, false, false, true]).undisturbed ∧
    block.busy = false ∧ block.params.wf ∧ block.params.abortOnNack = false ∧ 1 < block.params.tableLen ∧
    (∀ j, j < 3 * 1 → (withAcks block [false, false, false, false, false, true]).env.sdaAt j = false) ∧
    (withAcks block [false, false, false, false, false, true]).env.sdaAt (3 * 1 + 2) = true ∧
    (withAcks block [true]).env.sdaAt (3 * 0) = true ∧
    aborting.undisturbed ∧ aborting.busy = false ∧ aborting.params.wf ∧ 0 < aborting.params.tableLen ∧
    aborting.params.abortOnNack = true ∧ (withAcks aborting [true]).env.sdaAt (3 * 0) = true ∧
    (withAcks aborting [false, true]).env.sdaAt (3 * 0) = false ∧
    (withAcks aborting [false, true]).env.sdaAt (3 * 0 + 1) = true ∧
    (withAcks aborting [false, false, true]).env.sdaAt (3 * 0 + 1) = false ∧
    (withAcks aborting [false, false, true]).env.sdaAt (3 * 0 + 2) = true :=
  ⟨undisturbed_of_silent rfl rfl, rfl, by decide, rfl, by decide, by decide, rfl, rfl, undisturbed_of_silent rfl rfl, rfl,
    by decide, by decide, rfl, rfl, rfl, rfl, rfl, rfl⟩

/-! The vectors' synthetic sensor: each period of PCLK low for one tick and high for two, the byte held for all three. -/

/-- The ticks of one pixel: the two unsampled periods show 0xEE. -/
def pixelTicks (b0 b1 : Byte) : List Snapshot :=
  [shows false false false b0, shows false false true b0, shows false false true b0,
   shows false false false b1, shows false false true b1, shows false false true b1,
   shows false false false 0xEE, shows false false true 0xEE, shows false false true 0xEE,
   shows false false false 0xEE, shows false false true 0xEE]

/-- The ticks of one line: two HSYNC pulses and the pixels. -/
def lineTicks (P : Nat → Byte) (row : Nat) : List Snapshot :=
  [shows false true false 0, shows false false false 0] ++ [shows false true false 0, shows false false false 0] ++
    List.flatten ((List.range 160).map fun col => pixelTicks (P (rasterAddress row col)) (P (rasterAddress row col + 1)))

/-- The ticks of one frame: one VSYNC pulse and the lines. -/
def frameTicks (P : Nat → Byte) : List Snapshot :=
  [shows true false false 0, shows false false false 0] ++ List.flatten ((List.range 120).map (lineTicks P))

/-- The two lines of a shown byte are put together again. -/
theorem pix8_shows (v h p : Bool) (b : Byte) : (shows v h p b).pix8 = b := by
  apply BitVec.eq_of_getLsbD_eq; intro i hi
  refine (BitVec.getLsbD_append (x := BitVec.ofBool (b.getLsbD 7)) (y := b.extractLsb' 0 7) (i := i)).trans ?_
  by_cases h7 : i < 7
  · simp [h7]
  · obtain rfl : i = 7 := by omega
    simp

theorem pixelTicks_trace (b0 b1 : Byte) : PixelTrace b0 b1 (pixelTicks b0 b1) := by
  have edge (x y : Snapshot) (hx : x.pclk = false) (hy : y.pclk = true) : EdgeTrace [x, y] :=
    ⟨[], [x], y, rfl, by simp, by simp, by simp [hx], hy⟩
  refine ⟨[shows false false false b0, shows false false true b0], shows false false true b0,
    [shows false false false b1, shows false false true b1], shows false false true b1,
    [shows false false false 0xEE, shows false false true 0xEE],
    [shows false false true 0xEE, shows false false false 0xEE, shows false false true 0xEE], rfl,
    edge _ _ rfl rfl, pix8_shows .., edge _ _ rfl rfl, pix8_shows .., edge _ _ rfl rfl, ?_⟩
  exact ⟨[shows false false true 0xEE], [shows false false false 0xEE], shows false false true 0xEE, rfl, by simp,
    by simp [shows], by simp [shows], rfl⟩

theorem lineTicks_trace (P : Nat → Byte) (row : Nat) : LineTrace P row (lineTicks P row) := by
  have pulse : PulseTrace .hsync [shows false true false 0, shows false false false 0] :=
    ⟨[], [shows false true false 0], shows false false false 0, rfl, by simp, by simp, by simp [shows, Snapshot.pin], rfl⟩
  refine ⟨_, _, _, rfl, pulse, pulse, by simp, fun col px h => ?_⟩
  obtain ⟨_, rfl⟩ := List.getElem?_eq_some_iff.mp h
  simp only [List.getElem_map, List.getElem_range]
  exact pixelTicks_trace ..

/-- Every pattern has a trace of a frame that shows it. -/
theorem frameTicks_trace (P : Nat → Byte) : FrameTrace P (frameTicks P) := by
  refine ⟨_, _, rfl, ⟨[], [shows true false false 0], shows false false false 0, rfl, by simp, by simp,
    by simp [shows, Snapshot.pin], rfl⟩, by simp, fun row ln h => ?_⟩
  obtain ⟨_, rfl⟩ := List.getElem?_eq_some_iff.mp h
  simp only [List.getElem_map, List.getElem_range]
  exact lineTicks_trace ..

/-- The second pixel of the last line. -/
theorem witness_PixelStoresItsTwoBytes :
    (withPins (engine .pkWhileHigh 119 159 0 38398) (pixelTicks 0x12 0xF8 ++ [])).undisturbed ∧
    (engine .pkWhileHigh 119 159 0 38398).cbw.state = .idle ∧ (engine .pkWhileHigh 119 159 0 38398).cfg.state = .idle ∧
    (engine .pkWhileHigh 119 159 0 38398).fce.state = .pkWhileHigh ∧ (engine .pkWhileHigh 119 159 0 38398).fce.edge = 0 ∧
    (engine .pkWhileHigh 119 159 0 38398).fce.byteIndex.toNat + 1 < 38400 ∧
    PixelTrace 0x12 0xF8 (pixelTicks 0x12 0xF8) :=
  ⟨undisturbed_of_silent rfl rfl, rfl, rfl, rfl, rfl, by decide, pixelTicks_trace ..⟩

/-- V30's pattern. -/
theorem witness_CaptureReproducesTheFrame :
    (withPins block (frameTicks (fun k => BitVec.ofNat 8 (7 * k + 3)) ++ [shows false false true 0xEE])).undisturbed ∧
    block.busy = false ∧ FrameTrace (fun k => BitVec.ofNat 8 (7 * k + 3)) (frameTicks fun k => BitVec.ofNat 8 (7 * k + 3)) :=
  ⟨undisturbed_of_silent rfl rfl, rfl, frameTicks_trace _⟩

/-- Two captures at the same cursor whose next ticks show different bytes. -/
theorem witness_DataLinesNeverSteer :
    ∃ s s' t : State, s.undisturbed ∧ s'.undisturbed ∧ s.cbw.state = .idle ∧ s.cfg.state = .idle ∧ s'.cbw.state = .idle ∧
      s'.cfg.state = .idle ∧ s'.fce = { s.fce with irqSaved := s'.fce.irqSaved } ∧
      (∀ k pin, (s.env.snapshotAt k).pin pin = (s'.env.snapshotAt k).pin pin) ∧
      (∀ m u, m < 1 → run m s = .next u → u.fce.state ≠ .idle) ∧ run 1 s = .next t :=
  ⟨withPins (engine .sample 0 1 1 3) [shows false false true 0xF8],
    withPins (engine .sample 0 1 1 3) [shows false false true 0x00], _, undisturbed_of_silent rfl rfl,
    undisturbed_of_silent rfl rfl, rfl, rfl, rfl, rfl, rfl,
    fun k pin => by cases k with
      | zero => cases pin <;> rfl
      | succ k => rfl,
    fun m u hm h => by
      obtain rfl : m = 0 := by omega
      cases h
      decide,
    rfl⟩

/-- A capture at COMPLETE in two states that differ in the saved interrupt mask: the step that completes them. -/
theorem witness_StoredBytes :
    ∃ s s' t : State, s.undisturbed ∧ s'.undisturbed ∧ s.cbw.state = .idle ∧ s.cfg.state = .idle ∧ s'.cbw.state = .idle ∧
      s'.cfg.state = .idle ∧ s.fce.cursorInv ∧ s.memoryInv ∧ s'.memoryInv ∧ s.fce.state ≠ .idle ∧
      s'.fce = { s.fce with irqSaved := s'.fce.irqSaved } ∧ (∀ k, s.env.snapshotAt k = s'.env.snapshotAt k) ∧
      (∀ a, a < s.fce.byteIndex.toNat → Memory.read? s'.fb a = Memory.read? s.fb a) ∧
      (∀ m u, m < 1 → run m s = .next u → u.fce.state ≠ .idle) ∧ run 1 s = .next t ∧ t.fce.state = .idle :=
  ⟨engine .complete 120 160 0 38400,
    { engine .complete 120 160 0 38400 with
      fce := { (engine .complete 120 160 0 38400).fce with irqSaved := .allMasked } }, _,
    undisturbed_of_silent rfl rfl, undisturbed_of_silent rfl rfl, rfl, rfl, rfl, rfl, ⟨rfl, rfl, rfl, rfl, rfl⟩,
    memoryInv_of_empty rfl rfl, memoryInv_of_empty rfl rfl, by decide, rfl, fun _ => rfl,
    fun _ _ => rfl,
    fun m u hm h => by
      obtain rfl : m = 0 := by omega
      cases h
      decide,
    rfl, rfl⟩

/-- Two captures just accepted, in any two idle states that see the same snapshots, meet the premises of
StoredBytesDependOnTheSnapshotsOnly. -/
theorem witness_started_captures (s s' : State) (hs : ∀ k, s.env.snapshotAt k = s'.env.snapshotAt k) :
    s.startCapture.fce.cursorInv ∧ s.startCapture.fce.state ≠ .idle ∧
      s'.startCapture.fce = { s.startCapture.fce with irqSaved := s'.startCapture.fce.irqSaved } ∧
      (∀ k, s.startCapture.env.snapshotAt k = s'.startCapture.env.snapshotAt k) ∧
      ∀ a, a < s.startCapture.fce.byteIndex.toNat → Memory.read? s'.startCapture.fb a = Memory.read? s.startCapture.fb a :=
  ⟨⟨rfl, rfl⟩, by exact FceState.noConfusion, rfl, hs, fun a h => absurd h (Nat.not_lt_zero a)⟩

/-- A capture in its fourth line, about to store its second byte of pixel 5, meets every invariant: the statements whose
premise is `State.Inv` or one of its parts. -/
def sampling : State := withPins (engine .sample 3 5 1 971) [shows false false true 0xF8]

theorem witness_Inv : sampling.Inv :=
  ⟨rfl, ⟨⟨by decide, by decide, by decide, rfl⟩, by decide⟩, ⟨rfl, rfl⟩,
    ⟨fun h => absurd h (by decide), fun h => absurd h (by decide)⟩,
    ⟨fun h => absurd rfl h, fun h => absurd rfl h⟩, ⟨by decide, fun h => absurd h (by decide), trivial⟩, ⟨rfl, rfl, rfl⟩,
    memoryInv_of_empty rfl rfl⟩

/-- ByteIndexAdvancesOnlyInSample, EveryStepKeeps…, OnlyOneUnitSteps, OnlySampleWrites…, ParametersNeverChange. -/
theorem witness_sampling_step : ∃ t, sampling.undisturbed ∧ sampling.env.issue = none ∧ sampling.fce.cursorInv ∧
    sampling.cbw.pinsInv ∧ sampling.memoryInv ∧ sampling.fce.state ≠ .idle ∧ step sampling = .next t :=
  ⟨_, undisturbed_of_silent rfl rfl, rfl, witness_Inv.cursor, witness_Inv.pins, witness_Inv.memory, by decide, rfl⟩

/-- A step of each unit, of the idle block with a silent host, and the three cases of the platform's move. -/
theorem witness_OnlyOneUnitSteps : ∃ t u, (writer .b1 false true).undisturbed ∧ step (writer .b1 false true) = .next t ∧
    (writer .b1 false true).cbw.state ≠ .idle ∧ (configurator .settle 0 2).undisturbed ∧
    step (configurator .settle 0 2) = .next u ∧ (configurator .settle 0 2).cbw.state = .idle ∧
    (configurator .settle 0 2).cfg.state ≠ .idle ∧ block.undisturbed ∧ step block = .next block ∧ block.busy = false ∧
    block.env.host = [] ∧ block.env.platform = [] ∧ waiting.flags.irqMasked = true ∧ block.flags.irqMasked = false ∧
    (withPlatform block [.setMask (.mask 3)]).env.platform.head? = some (.setMask (.mask 3)) ∧
    (∀ m, block.env.platform.head? ≠ some (.setMask m)) :=
  ⟨_, _, undisturbed_of_silent rfl rfl, rfl, by decide, undisturbed_of_silent rfl rfl, rfl, rfl, by decide,
    undisturbed_of_silent rfl rfl, rfl, rfl, rfl, rfl, rfl, rfl, rfl, fun _ h => by cases h⟩

/-- A step that sets each result flag. -/
theorem witness_ResultFlags : ∃ t u v w,
    step (engine .complete 120 160 0 38400) = .next t ∧ block.flags.frameDone = false ∧ t.flags.frameDone = true ∧
    step (configurator .write 0 0) = .next u ∧ block.flags.cfgErr = false ∧ u.flags.cfgErr = true ∧
    step (configurator .fetch 3 0) = .next v ∧ block.flags.cfgOk = false ∧ v.flags.cfgOk = true ∧
    step (writer .p3 true false) = .next w ∧ w.flags.wrOk ≠ (writer .p3 true false).flags.wrOk :=
  ⟨_, _, _, _, rfl, rfl, rfl, rfl, rfl, rfl, rfl, rfl, rfl, rfl, by decide⟩

end Sys2Proof.Tests
end

section
/-! PROOFS of the scope's statements: which unit steps and what it leaves unchanged (R35), each part of `State.Inv` over each move
of a step, and that no step stops (R10, R254). -/

namespace Sys2Proof

/-! ### What the decoder accepts -/

variable {op a b : Byte} {w : OpWord} {i j : Instr}

theorem decodeNoOperand_ok (h : decodeNoOperand i a b = .ok j) : j = i := by
  unfold decodeNoOperand at h
  split at h
  · exact (Except.ok.inj h).symm
  · cases h

theorem decodeGetFrame_wellFormed (h : decodeGetFrame a b = .ok i) : i.wellFormed = true := by
  unfold decodeGetFrame at h
  split at h
  · rw [← Except.ok.inj h]; exact decide_eq_true ‹_›
  · cases h

theorem decodeHost_wellFormed (h : decodeHost op a b = .ok i) : i.wellFormed = true := by
  unfold decodeHost at h
  split_ifs at h
  · rw [decodeNoOperand_ok h]; rfl
  · rw [decodeNoOperand_ok h]; rfl
  · exact decodeGetFrame_wellFormed h
  · rw [decodeNoOperand_ok h]; rfl
  · rw [← Except.ok.inj h]; rfl

theorem decodeTransport_wellFormed (h : decodeTransport op a b = .ok i) : i.wellFormed = true := by
  unfold decodeTransport decodeTxbyte at h
  split_ifs at h
  · rw [decodeNoOperand_ok h]; rfl
  · rw [decodeNoOperand_ok h]; rfl
  · rw [← Except.ok.inj h]; rfl

theorem decodeWaitw_wellFormed (h : decodeWaitw a b = .ok i) : i.wellFormed = true := by
  unfold decodeWaitw at h
  split at h
  · cases h
  · split_ifs at h <;> rw [← Except.ok.inj h] <;> rfl

theorem decodeCapture_wellFormed (h : decodeCapture op a b = .ok i) : i.wellFormed = true := by
  unfold decodeCapture at h
  split_ifs at h
  · exact decodeWaitw_wellFormed h
  all_goals rw [decodeNoOperand_ok h]; rfl

/-- R92, R101: the operands of a decoded word are legal. -/
theorem decode_wellFormed (h : decode w = .ok i) : i.wellFormed = true := by
  unfold decode decodeFields at h
  split_ifs at h
  · exact decodeHost_wellFormed h
  · exact decodeTransport_wellFormed h
  · exact decodeCapture_wellFormed h

theorem decode?_eq_some : decode? w = some i ↔ decode w = .ok i := by
  unfold decode?
  cases decode w <;> simp

end Sys2Proof

namespace Sys2Proof.Machine

variable {s t : State}

/-! ### The moves of each unit, and what they leave unchanged -/

/-- R35: the writer's step writes its own registers and its result, and takes at most a draw; what is known of the sensor
changes only with the end of a write. -/
theorem UnitMove.writer_frame (h : UnitMove s t) (hw : s.cbw.state ≠ .idle) : ∃ cbw wrOk sensor acks draws,
    t = { s with cbw := cbw, flags := { s.flags with wrOk := wrOk }, sensor := sensor,
                 env := { s.env with acks := acks, draws := draws } } ∧
      (sensor = s.sensor ∨ sensor = s.sensorAfterWrite) := by
  cases h with
  | s1 | s2 | b1 | b2 | a1 | a2 | a3 | p1 | p2 => exact ⟨_, _, _, _, _, rfl, .inl rfl⟩
  | b3 => obtain ⟨-, e⟩ | ⟨-, e⟩ := s.stepB3_cases <;> exact ⟨_, _, _, _, _, e, .inl rfl⟩
  | a4 => obtain ⟨-, e⟩ | ⟨-, e⟩ := s.stepA4_cases <;> exact ⟨_, _, _, _, _, e, .inl rfl⟩
  | p3 => exact ⟨_, _, _, _, _, rfl, .inr rfl⟩
  | finish hi | fetch hi | judge hi | settle hi | poll hi | sample hi | complete hi | idle hi => exact absurd hi hw

/-- All that the configurator's step can do (R121 to R124). -/
theorem UnitMove.configurator_cases (h : UnitMove s t) (hw : s.cbw.state = .idle) (hc : s.cfg.state ≠ .idle) :
    (s.cfg.state = .fetch ∧
      t = { s with cfg := { s.cfg with state := .idle }, flags := { s.flags with cfgOk := true } }) ∨
    (s.cfg.state = .fetch ∧ s.cfg.idx.toNat ≠ s.params.tableLen ∧ ∃ e : RegEntry,
      t = { s.startWrite e.address e.value with cfg := { s.cfg with state := .write } }) ∨
    (s.cfg.state = .write ∧ t = s.judgeWrite) ∨
    (s.cfg.state = .settle ∧ t = s.delayStep) := by
  cases h with
  | finish _ h => exact .inl ⟨h, rfl⟩
  | fetch _ h hi e => exact .inr (.inl ⟨h, hi, e, rfl⟩)
  | judge _ h => exact .inr (.inr (.inl ⟨h, rfl⟩))
  | settle _ h => exact .inr (.inr (.inr ⟨h, rfl⟩))
  | poll _ hi | sample _ hi | complete _ hi | idle _ hi => exact absurd hi hc
  | s1 h | s2 h | b1 h | b2 h | b3 h | a1 h | a2 h | a3 h | a4 h | p1 h | p2 h | p3 h => simp [h] at hw

/-- R35: the configurator's step writes its own registers and result flags; only FETCH, on its way to WRITE, starts the
writer. -/
theorem UnitMove.configurator_frame (h : UnitMove s t) (hw : s.cbw.state = .idle) (hc : s.cfg.state ≠ .idle) :
    ∃ cbw cfg cfgOk cfgErr,
      t = { s with cbw := cbw, cfg := cfg, flags := { s.flags with cfgOk := cfgOk, cfgErr := cfgErr } } ∧
      (cbw = s.cbw ∨ cfg.state = .write) := by
  obtain ⟨-, rfl⟩ | ⟨-, -, _, rfl⟩ | ⟨-, rfl⟩ | ⟨-, rfl⟩ := h.configurator_cases hw hc
  · exact ⟨_, _, _, _, rfl, .inl rfl⟩
  · exact ⟨_, _, _, _, rfl, .inr rfl⟩
  · obtain ⟨-, e⟩ | ⟨-, e⟩ := s.judgeWrite_cases <;> exact ⟨_, _, _, _, e, .inl rfl⟩
  · obtain ⟨-, e⟩ | ⟨-, e⟩ := s.delayStep_cases <;> exact ⟨_, _, _, _, e, .inl rfl⟩

/-- All that the engine's step can do (R182, R187, R190). -/
theorem UnitMove.engine_cases (h : UnitMove s t) (hw : s.cbw.state = .idle) (hc : s.cfg.state = .idle) :
    (∃ pin level, s.fce.state = waitState pin level ∧ t = s.polled pin level) ∨
    (s.fce.state = .sample ∧ s.fce.byteIndex.toNat < fbLen ∧ t = s.storeSample) ∨
    (s.fce.state = .complete ∧ t = s.completeCapture) ∨
    (s.fce.state = .idle ∧ t = s) := by
  cases h with
  | poll _ _ pin level h => exact .inl ⟨pin, level, h, rfl⟩
  | sample _ _ h hb => exact .inr (.inl ⟨h, hb, rfl⟩)
  | complete _ _ h => exact .inr (.inr (.inl ⟨h, rfl⟩))
  | idle _ _ h => exact .inr (.inr (.inr ⟨h, rfl⟩))
  | finish _ h | fetch _ h | judge _ h | settle _ h => simp [h] at hc
  | s1 h | s2 h | b1 h | b2 h | b3 h | a1 h | a2 h | a3 h | a4 h | p1 h | p2 h | p3 h => simp [h] at hw

/-- R35: with the writer and the configurator IDLE, a step writes only the engine's registers, the frame buffer, the flags and
the mask of a capture, and takes at most a tick; only COMPLETE moves the mask. -/
theorem UnitMove.engine_frame (h : UnitMove s t) (hw : s.cbw.state = .idle) (hc : s.cfg.state = .idle) :
    ∃ fce fb irqMask frameDone irqMasked pins tick,
      t = { s with fce := fce, fb := fb, irqMask := irqMask,
                   flags := { s.flags with frameDone := frameDone, irqMasked := irqMasked },
                   env := { s.env with pins := pins, tick := tick } } ∧
      (s.fce.state ≠ .complete → irqMask = s.irqMask) := by
  obtain ⟨_, _, -, rfl⟩ | ⟨-, -, rfl⟩ | ⟨hf, rfl⟩ | ⟨-, rfl⟩ := h.engine_cases hw hc
  · exact ⟨_, _, _, _, _, _, _, rfl, fun _ => rfl⟩
  · exact ⟨_, _, _, _, _, _, _, rfl, fun _ => rfl⟩
  · exact ⟨_, _, _, _, _, _, _, rfl, fun hn => absurd hf hn⟩
  · exact ⟨_, _, _, _, _, _, _, rfl, fun _ => rfl⟩

/-- No unit's step places an internal word to be run by itself (assumption 6). -/
theorem UnitMove.issue (h : UnitMove s t) : t.env.issue = s.env.issue := by
  by_cases hw : s.cbw.state = .idle
  · by_cases hc : s.cfg.state = .idle
    · obtain ⟨_, _, _, _, _, _, _, rfl, -⟩ := h.engine_frame hw hc; rfl
    · obtain ⟨_, _, _, _, rfl, -⟩ := h.configurator_frame hw hc; rfl
  · obtain ⟨_, _, _, _, _, rfl, -⟩ := h.writer_frame hw; rfl

/-- With a silent host the step is the running unit's. -/
theorem step_of_silent (hi : s.env.issue = none) (hh : s.env.host = []) : step s = s.nextMoves.unitStep := by
  simp [step, State.machineStep, hi, hh]

theorem step_of_idle_silent (hi : s.env.issue = none) (hh : s.env.host = []) (hb : s.busy = false) :
    step s = .next s.nextMoves := by
  obtain ⟨hf, hc, hw⟩ := busy_eq_false.mp hb
  exact (step_of_silent hi hh).trans (unitStep_idle hw hc hf)

/-- While BUSY = 1 and no reset comes, a step that answers a next state is a move of the running unit. -/
theorem unitMove_of_busy (hu : s.undisturbed) (hb : s.busy = true) (h : step s = .next t) : UnitMove s.nextMoves t :=
  unitStep_next (step_of_busy hu hb ▸ h)

/-! ### The engine's cursor and the byte counter -/

/-- An increment that does not leave the register's width does not wrap (R14). -/
theorem toNat_add_one {n : Nat} {x : BitVec n} (h : x.toNat + 1 < 2 ^ n) : (x + 1).toNat = x.toNat + 1 := by
  simpa using Nat.mod_eq_of_lt h

/-- R28 at the end of an edge: the byte counter is already that of the next edge, and `advance` moves the cursor after it. -/
theorem FceRegs.advance_cursorInv {f : FceRegs}
    (hb : f.byteIndex.toNat = 2 * (f.line.toNat * 160 + f.column.toNat) + min (f.edge.toNat + 1) 2)
    (hl : f.line.toNat ≤ 119) (hc : f.column.toNat ≤ 159) (hp : f.pulse = false) : f.advance.cursorInv := by
  obtain ⟨he, e⟩ | ⟨he, hlt, e⟩ | ⟨he, hge, hlt, e⟩ | ⟨he, hge, hge', e⟩ := f.advance_cases <;> rw [e]
  · have hne : f.edge.toNat ≠ 3 := fun h => he (BitVec.eq_of_toNat_eq h)
    have hedge : (f.edge + 1).toNat = f.edge.toNat + 1 := toNat_add_one (by omega)
    exact ⟨show f.byteIndex.toNat = 2 * (f.line.toNat * 160 + f.column.toNat) + min (f.edge + 1).toNat 2 by omega,
      hl, hc, hp⟩
  all_goals have hedge : f.edge.toNat = 3 := congrArg BitVec.toNat he
  all_goals have hcol : (f.column + 1).toNat = f.column.toNat + 1 := toNat_add_one (by omega)
  · exact ⟨show f.byteIndex.toNat = 2 * (f.line.toNat * 160 + (f.column + 1).toNat) + 0 by omega, hl,
      show (f.column + 1).toNat ≤ 159 by omega, hp⟩
  all_goals have hline : (f.line + 1).toNat = f.line.toNat + 1 := toNat_add_one (by omega)
  · exact ⟨show f.byteIndex.toNat = 320 * (f.line + 1).toNat by omega, show (f.line + 1).toNat ≤ 119 by omega⟩
  · exact ⟨BitVec.eq_of_toNat_eq (show (f.line + 1).toNat = 120 by omega),
      BitVec.eq_of_toNat_eq (show (f.column + 1).toNat = 160 by omega),
      BitVec.eq_of_toNat_eq (show f.byteIndex.toNat = 38400 by omega), rfl, hp⟩

/-- R28: leaving a wait keeps the cursor's invariant. -/
theorem FceRegs.leaveWait_cursorInv {f : FceRegs} {pin : Pin} {level : Bool} (h : f.state = waitState pin level)
    (hc : f.cursorInv) : (f.leaveWait pin level).cursorInv := by
  cases pin <;> cases level <;> simp only [FceRegs.cursorInv, h, waitState] at hc
  case vsync.false => exact hc
  case vsync.true => simp [FceRegs.leaveWait, FceRegs.cursorInv, hc]
  case hsync.false => exact hc
  case hsync.true =>
    simp only [FceRegs.leaveWait]
    split
    · exact ⟨show f.byteIndex.toNat = 2 * (f.line.toNat * 160 + 0) + 0 by omega, hc.2, Nat.zero_le _, rfl⟩
    · exact hc
  case pclk.true => exact hc
  case pclk.false =>
    obtain ⟨hb, hl, hcol, hp⟩ := hc
    simp only [FceRegs.leaveWait]
    split
    · exact ⟨⟨hb, hl, hcol, hp⟩, ‹_›⟩
    · exact FceRegs.advance_cursorInv (by omega) hl hcol hp

theorem FceRegs.poll_cursorInv {f : FceRegs} {pin : Pin} {level : Bool} (x : Bool) (h : f.state = waitState pin level)
    (hc : f.cursorInv) : (f.poll pin level x).cursorInv := by
  unfold FceRegs.poll
  split
  · rw [← h]; exact hc
  · exact FceRegs.leaveWait_cursorInv h hc

/-- R28 (e), R61: in SAMPLE the byte counter addresses a byte of the frame. -/
theorem FceRegs.byteIndex_lt_of_sample {f : FceRegs} (h : f.state = .sample) (hc : f.cursorInv) :
    f.byteIndex.toNat < fbLen := by
  simp only [FceRegs.cursorInv, h] at hc
  obtain ⟨⟨hb, hl, hcol, -⟩, he⟩ := hc
  show f.byteIndex.toNat < 38400
  omega

/-- R187: after its store SAMPLE ends the edge with the byte counter moved on. -/
theorem State.storeSample_cursorInv (h : s.fce.state = .sample) (hc : s.fce.cursorInv) : s.storeSample.fce.cursorInv := by
  simp only [FceRegs.cursorInv, h] at hc
  obtain ⟨⟨hb, hl, hcol, hp⟩, he⟩ := hc
  have hnext : (s.fce.byteIndex + 1).toNat = s.fce.byteIndex.toNat + 1 := toNat_add_one (by omega)
  refine FceRegs.advance_cursorInv (hnext.trans ?_) hl hcol hp
  show _ = 2 * (s.fce.line.toNat * 160 + s.fce.column.toNat) + min (s.fce.edge.toNat + 1) 2
  omega

theorem UnitMove.cursorInv (h : UnitMove s t) (hc : s.fce.cursorInv) : t.fce.cursorInv := by
  by_cases hw : s.cbw.state = .idle
  · by_cases hi : s.cfg.state = .idle
    · obtain ⟨_, _, hf, rfl⟩ | ⟨hf, -, rfl⟩ | ⟨-, rfl⟩ | ⟨-, rfl⟩ := h.engine_cases hw hi
      · exact FceRegs.poll_cursorInv _ hf hc
      · exact State.storeSample_cursorInv hf hc
      · trivial
      · exact hc
    · obtain ⟨_, _, _, _, rfl, -⟩ := h.configurator_frame hw hi; exact hc
  · obtain ⟨_, _, _, _, _, rfl, -⟩ := h.writer_frame hw; exact hc

theorem HostMove.cursorInv (h : HostMove s t) (hc : s.fce.cursorInv) : t.fce.cursorInv := by
  cases h with
  | configure | getFrame | write => exact hc
  | capture => exact ⟨rfl, rfl⟩

/-! ### The bus -/

@[simp] theorem State.judgeWrite_cbw : s.judgeWrite.cbw = s.cbw := by
  obtain ⟨-, e⟩ | ⟨-, e⟩ := s.judgeWrite_cases <;> simp [e]

@[simp] theorem State.delayStep_cbw : s.delayStep.cbw = s.cbw := by
  obtain ⟨-, e⟩ | ⟨-, e⟩ := s.delayStep_cases <;> simp [e]

/-- A write starts on the idle bus and changes no pin (R143). -/
theorem State.startWrite_pinsInv {a v : Byte} (hw : s.cbw.state = .idle) (hp : s.cbw.pinsInv) :
    (s.startWrite a v).cbw.pinsInv := by
  simp only [CbwRegs.pinsInv, hw] at hp
  exact hp

/-- R144 to R150, state by state; another unit's step leaves the writer as it is, or FETCH starts a write. -/
theorem UnitMove.pinsInv (h : UnitMove s t) (hp : s.cbw.pinsInv) : t.cbw.pinsInv := by
  cases h with
  | s1 h | s2 h | b1 h | b2 h | a1 h | a2 h | a3 h | p1 h | p2 h | p3 h =>
    simp only [CbwRegs.pinsInv, h] at hp
    simp [CbwRegs.pinsInv, State.stepS1, State.stepS2, State.stepB1, State.stepB2, State.stepA1, State.stepA2, State.stepA3,
      State.stepP1, State.stepP2, State.stepP3, hp]
  | b3 => obtain ⟨-, e⟩ | ⟨-, e⟩ := s.stepB3_cases <;> simp [e, CbwRegs.pinsInv]
  | a4 h =>
    simp only [CbwRegs.pinsInv, h] at hp
    obtain ⟨-, e⟩ | ⟨-, e⟩ := s.stepA4_cases
    · rw [e]; exact ⟨rfl, hp.2⟩
    · rw [e]; rfl
  | fetch hw => exact State.startWrite_pinsInv hw hp
  | judge | settle => simpa using hp
  | finish | poll | sample | complete | idle => exact hp

theorem HostMove.pinsInv (hw : s.cbw.state = .idle) (h : HostMove s t) (hp : s.cbw.pinsInv) : t.cbw.pinsInv := by
  cases h with
  | configure | getFrame | capture => exact hp
  | write => exact State.startWrite_pinsInv hw hp

/-! ### What the writer is sending -/

/-- R143: a write begins with byte 0 and no failed acknowledge. -/
theorem State.byteInv_of_start (h : s.cbw.state = .s1 ∨ s.cbw.state = .s2) (hb : s.cbw.bytesel = 0)
    (ho : s.cbw.ok = true) : s.byteInv :=
  ⟨fun _ => ⟨hb, ho⟩, fun ht => by obtain h | h := h <;> simp [h, CbwState.inTxbyte] at ht⟩

/-- R145, R149: while a byte is sent, `sh` is the byte that `bytesel` selects. -/
theorem State.byteInv_of_inTxbyte (h : s.cbw.state.inTxbyte = true) (hb : s.cbw.bytesel.toNat ≤ 2)
    (hs : s.cbw.sh = s.busByte s.cbw.bytesel) : s.byteInv :=
  ⟨fun hn => by obtain e | e := hn <;> simp [e, CbwState.inTxbyte] at h, fun _ => ⟨hb, hs⟩⟩

/-- Outside START and TXBYTE nothing is asked. -/
theorem State.byteInv_of_stop_or_idle
    (h : s.cbw.state = .p1 ∨ s.cbw.state = .p2 ∨ s.cbw.state = .p3 ∨ s.cbw.state = .idle) : s.byteInv := by
  obtain h | h | h | h := h <;> simp [State.byteInv, h, CbwState.inTxbyte]

theorem State.stepS2_byteInv (h : s.cbw.state = .s2) (hb : s.byteInv) : s.stepS2.byteInv := by
  have h0 : s.cbw.bytesel = 0 := (hb.1 (.inr h)).1
  refine State.byteInv_of_inTxbyte rfl ?_ ?_ <;> simp [State.stepS2, State.busByte, h0]

theorem State.stepB3_byteInv (h : s.cbw.state = .b3) (hb : s.byteInv) : s.stepB3.byteInv := by
  obtain ⟨hsel, hsh⟩ := hb.2 (by rw [h]; rfl)
  obtain ⟨-, e⟩ | ⟨-, e⟩ := s.stepB3_cases <;> rw [e] <;> exact State.byteInv_of_inTxbyte rfl hsel hsh

theorem State.stepA4_byteInv (h : s.cbw.state = .a4) (hb : s.byteInv) : s.stepA4.byteInv := by
  obtain ⟨hsel, -⟩ := hb.2 (by rw [h]; rfl)
  obtain ⟨-, e⟩ | ⟨hl, e⟩ := s.stepA4_cases <;> rw [e]
  · exact State.byteInv_of_stop_or_idle (.inl rfl)
  · have hne : s.cbw.bytesel.toNat ≠ 2 := fun h2 => by
      simp [State.lastByte, show s.cbw.bytesel = 2 from BitVec.eq_of_toNat_eq h2] at hl
    have hnext : (s.cbw.bytesel + 1).toNat = s.cbw.bytesel.toNat + 1 := toNat_add_one (by omega)
    exact State.byteInv_of_inTxbyte rfl (show (s.cbw.bytesel + 1).toNat ≤ 2 by omega) rfl

theorem UnitMove.byteInv (h : UnitMove s t) (hb : s.byteInv) : t.byteInv := by
  cases h with
  | s1 h => exact State.byteInv_of_start (.inr rfl) (hb.1 (.inl h)).1 (hb.1 (.inl h)).2
  | s2 h => exact State.stepS2_byteInv h hb
  | b1 h | b2 h | a1 h | a2 h | a3 h =>
    obtain ⟨hsel, hsh⟩ := hb.2 (by rw [h]; rfl)
    exact State.byteInv_of_inTxbyte rfl hsel hsh
  | b3 h => exact State.stepB3_byteInv h hb
  | a4 h => exact State.stepA4_byteInv h hb
  | p1 => exact State.byteInv_of_stop_or_idle (.inr (.inl rfl))
  | p2 => exact State.byteInv_of_stop_or_idle (.inr (.inr (.inl rfl)))
  | p3 => exact State.byteInv_of_stop_or_idle (.inr (.inr (.inr rfl)))
  | fetch => exact State.byteInv_of_start (.inl rfl) rfl rfl
  | judge hw | settle hw => exact State.byteInv_of_stop_or_idle (by simp [hw])
  | finish hw | poll hw | sample hw | complete hw | idle hw =>
    exact State.byteInv_of_stop_or_idle (.inr (.inr (.inr hw)))

theorem HostMove.byteInv (h : HostMove s t) (hb : s.byteInv) : t.byteInv := by
  cases h with
  | configure | getFrame | capture => exact hb
  | write => exact State.byteInv_of_start (.inl rfl) rfl rfl

/-! ### One unit at a time -/

theorem UnitMove.unitsInv (h : UnitMove s t) (hu : s.unitsInv) : t.unitsInv := by
  obtain ⟨hcfg, hcbw⟩ := hu
  by_cases hw : s.cbw.state = .idle
  · by_cases hc : s.cfg.state = .idle
    · obtain ⟨_, _, _, _, _, _, _, rfl, -⟩ := h.engine_frame hw hc
      exact ⟨fun hn => absurd hc hn, fun hn => absurd hw hn⟩
    · obtain ⟨_, _, _, _, rfl, hwrite⟩ := h.configurator_frame hw hc
      refine ⟨fun _ => hcfg hc, fun hn => ⟨hcfg hc, hwrite.elim (fun e => ?_) .inr⟩⟩
      exact absurd (e ▸ hw) hn
  · obtain ⟨_, _, _, _, _, rfl, -⟩ := h.writer_frame hw
    exact ⟨hcfg, fun _ => hcbw hw⟩

/-- R230: the host starts a unit of an idle block. -/
theorem HostMove.unitsInv (hb : s.busy = false) (h : HostMove s t) : t.unitsInv := by
  obtain ⟨hf, hc, hw⟩ := busy_eq_false.mp hb
  cases h with
  | configure => exact ⟨fun _ => hf, fun hn => absurd hw hn⟩
  | capture | getFrame => exact ⟨fun hn => absurd hc hn, fun hn => absurd hw hn⟩
  | write => exact ⟨fun hn => absurd hc hn, fun _ => ⟨hf, .inl hc⟩⟩

/-! ### The configurator's position -/

theorem State.judgeWrite_configInv (h : s.cfg.state = .write) (hc : s.configInv) : s.judgeWrite.configInv := by
  obtain ⟨hwf, -, hpos⟩ := hc
  simp only [h] at hpos
  obtain ⟨hidx, hok, herr⟩ := hpos
  obtain ⟨-, e⟩ | ⟨-, e⟩ := s.judgeWrite_cases <;> rw [e]
  · exact ⟨hwf, fun _ => herr, hidx, hok, herr, hwf.2, le_rfl⟩
  · exact ⟨hwf, fun ht => by simp [hok] at ht, trivial⟩

/-- The table has at most 65535 entries (R12), so that `idx` does not wrap at the end of a delay. -/
theorem State.delayStep_configInv (h : s.cfg.state = .settle) (hc : s.configInv) : s.delayStep.configInv := by
  obtain ⟨hwf, hex, hpos⟩ := hc
  simp only [h] at hpos
  obtain ⟨hidx, hok, herr, hlo, hhi⟩ := hpos
  obtain ⟨-, e⟩ | ⟨hlt, e⟩ := s.delayStep_cases <;> rw [e]
  · have hlen := hwf.1
    have hnext : (s.cfg.idx + 1).toNat = s.cfg.idx.toNat + 1 := toNat_add_one (by omega)
    exact ⟨hwf, hex, hnext.trans_le hidx, hok, herr⟩
  · simp only [State.configInv, h]
    exact ⟨hwf, hex, hidx, hok, herr, by omega, by omega⟩

theorem UnitMove.configInv (h : UnitMove s t) (hc : s.configInv) : t.configInv := by
  by_cases hw : s.cbw.state = .idle
  · by_cases hi : s.cfg.state = .idle
    · obtain ⟨_, _, _, _, _, _, _, rfl, -⟩ := h.engine_frame hw hi; exact hc
    · obtain ⟨hst, rfl⟩ | ⟨hst, hne, _, rfl⟩ | ⟨hst, rfl⟩ | ⟨hst, rfl⟩ := h.configurator_cases hw hi
      · obtain ⟨hwf, -, hpos⟩ := hc
        simp only [hst] at hpos
        exact ⟨hwf, fun _ => hpos.2.2, trivial⟩
      · obtain ⟨hwf, hex, hpos⟩ := hc
        simp only [hst] at hpos
        exact ⟨hwf, hex, lt_of_le_of_ne hpos.1 hne, hpos.2⟩
      · exact State.judgeWrite_configInv hst hc
      · exact State.delayStep_configInv hst hc
  · obtain ⟨_, _, _, _, _, rfl, -⟩ := h.writer_frame hw; exact hc

theorem HostMove.configInv (h : HostMove s t) (hc : s.configInv) : t.configInv := by
  cases h with
  | configure => exact ⟨hc.1, fun _ => rfl, Nat.zero_le _, rfl, rfl⟩
  | capture | getFrame | write => exact hc

/-! ### The flags of a capture -/

theorem waitState_ne_idle (pin : Pin) (level : Bool) : waitState pin level ≠ .idle := by
  cases pin <;> cases level <;> exact FceState.noConfusion

/-- While the engine runs, in whichever state, the same is asked of the flags. -/
theorem State.captureInv_iff_of_running (h : s.fce.state ≠ .idle) :
    s.captureInv ↔ s.flags.irqMasked = true ∧ s.irqMask = .allMasked ∧ s.flags.frameDone = false := by
  unfold State.captureInv
  cases hs : s.fce.state <;> simp_all

theorem UnitMove.captureInv (h : UnitMove s t) (hc : s.captureInv) : t.captureInv := by
  by_cases hw : s.cbw.state = .idle
  · by_cases hi : s.cfg.state = .idle
    · obtain ⟨pin, level, hf, rfl⟩ | ⟨hf, -, rfl⟩ | ⟨-, rfl⟩ | ⟨-, rfl⟩ := h.engine_cases hw hi
      · rw [State.captureInv_iff_of_running (hf ▸ waitState_ne_idle pin level)] at hc
        exact (State.captureInv_iff_of_running (s.fce.poll_frame ..).2.2).mpr hc
      · rw [State.captureInv_iff_of_running (by simp [hf])] at hc
        exact (State.captureInv_iff_of_running (FceRegs.advance_ne_idle _)).mpr hc
      · rfl
      · exact hc
    · obtain ⟨_, _, _, _, rfl, -⟩ := h.configurator_frame hw hi; exact hc
  · obtain ⟨_, _, _, _, _, rfl, -⟩ := h.writer_frame hw; exact hc

theorem HostMove.captureInv (h : HostMove s t) (hc : s.captureInv) : t.captureInv := by
  cases h with
  | configure | getFrame | write => exact hc
  | capture => exact ⟨rfl, rfl, rfl⟩

/-- R197, R257: the platform's moves do not land during a capture. -/
theorem State.nextMoves_captureInv (hc : s.captureInv) : s.nextMoves.captureInv := by
  by_cases hf : s.fce.state = .idle
  · simpa only [State.captureInv, hf, State.nextMoves_fce, State.nextMoves_flags] using hc
  · obtain ⟨hm, hmask, hdone⟩ := (State.captureInv_iff_of_running hf).mp hc
    have hkept : s.nextMoves.irqMask = .allMasked := (s.platformMask_of_masked hm).trans hmask
    exact (State.captureInv_iff_of_running (s := s.nextMoves) hf).mpr ⟨hm, hkept, hdone⟩

/-! ### The memories -/

/-- R41, R63: the record of the sensor stays a memory of 256 registers when a write ends. -/
theorem State.sensorAfterWrite_form (hwf : Memory.wf s.sensor) (hin : Memory.within s.sensor 256) :
    Memory.wf s.sensorAfterWrite ∧ Memory.within s.sensorAfterWrite 256 := by
  unfold State.sensorAfterWrite
  split
  · exact ⟨Memory.wf_write hwf, Memory.within_write hin s.cbw.wrAddr.isLt⟩
  · exact ⟨Memory.wf_erase hwf, Memory.within_erase hin⟩

theorem UnitMove.memoryInv (h : UnitMove s t) (hm : s.memoryInv) : t.memoryInv := by
  have ⟨hfb, hfbIn, hsensor⟩ := hm
  by_cases hw : s.cbw.state = .idle
  · by_cases hi : s.cfg.state = .idle
    · obtain ⟨_, _, -, rfl⟩ | ⟨-, hlt, rfl⟩ | ⟨-, rfl⟩ | ⟨-, rfl⟩ := h.engine_cases hw hi
      · exact hm
      · exact ⟨Memory.wf_write hfb, Memory.within_write hfbIn hlt, hsensor⟩
      · exact hm
      · exact hm
    · obtain ⟨_, _, _, _, rfl, -⟩ := h.configurator_frame hw hi; exact hm
  · obtain ⟨_, _, _, _, _, rfl, rfl | rfl⟩ := h.writer_frame hw
    · exact hm
    · exact ⟨hfb, hfbIn, State.sensorAfterWrite_form hsensor.1 hsensor.2⟩

theorem HostMove.memoryInv (h : HostMove s t) (hm : s.memoryInv) : t.memoryInv := by
  cases h with
  | configure | capture | getFrame | write => exact hm

/-! ### All invariants together -/

/-- The host's and the platform's moves of a step keep the invariants. -/
theorem State.Inv.nextMoves (h : s.Inv) : s.nextMoves.Inv :=
  ⟨h.noIssue, h.cursor, h.pins, h.byte, h.units, h.config, State.nextMoves_captureInv h.capture, h.memory⟩

theorem State.Inv.unitMove (hs : s.Inv) (h : UnitMove s t) : t.Inv :=
  ⟨h.issue.trans hs.noIssue, h.cursorInv hs.cursor, h.pinsInv hs.pins, h.byteInv hs.byte, h.unitsInv hs.units,
    h.configInv hs.config, h.captureInv hs.capture, h.memoryInv hs.memory⟩

theorem HostMove.issue (h : HostMove s t) : t.env.issue = s.env.issue := by
  cases h with
  | configure | capture | getFrame | write => rfl

theorem State.Inv.hostMove (hs : s.Inv) (hb : s.busy = false) (h : HostMove s t) : t.Inv :=
  ⟨h.issue.trans hs.noIssue, h.cursorInv hs.cursor, h.pinsInv (busy_eq_false.mp hb).2.2 hs.pins, h.byteInv hs.byte,
    h.unitsInv hb, h.configInv hs.config, h.captureInv hs.capture, h.memoryInv hs.memory⟩

/-- R280 to R282: the reset makes the block idle; what it keeps, the frame buffer and the parameters, met the invariants. -/
theorem State.Inv.applyReset (h : s.Inv) : s.applyReset.Inv where
  noIssue := h.noIssue
  cursor := trivial
  pins := ⟨rfl, rfl⟩
  byte := State.byteInv_of_stop_or_idle (.inr (.inr (.inr rfl)))
  units := ⟨fun hn => absurd rfl hn, fun hn => absurd rfl hn⟩
  config := ⟨h.config.1, fun _ => rfl, trivial⟩
  capture := rfl
  memory := ⟨h.memory.1, h.memory.2.1, Memory.wf_nil, List.forall_mem_nil _⟩

theorem State.Inv.stepMove (hs : s.Inv) (h : StepMove s t) : t.Inv := by
  cases h with
  | unit h => exact hs.nextMoves.unitMove h
  | host hb h => exact hs.nextMoves.hostMove (busy_nextMoves.trans hb) h
  | reset => exact hs.applyReset.nextMoves

/-! ### No step stops -/

/-- R121: while `idx` is within the table, FETCH finds an entry or the table's end. -/
theorem State.fetchEntry_answers (h : s.cfg.idx.toNat ≤ s.params.tableLen) : ∃ t, s.fetchEntry = .next t := by
  unfold State.fetchEntry
  split
  · exact ⟨_, rfl⟩
  · have hlt : s.cfg.idx.toNat < s.params.table.length := lt_of_le_of_ne h ‹_›
    rw [State.tableEntry?_eq, List.getElem?_eq_getElem hlt]
    exact ⟨_, rfl⟩

/-- R35: the unit that steps neither faults nor is refused. -/
theorem State.Inv.unitStep_answers (hs : s.Inv) : ∃ t, s.unitStep = .next t := by
  cases hw : s.cbw.state with
  | s1 => exact ⟨_, unitStep_s1 hw⟩
  | s2 => exact ⟨_, unitStep_s2 hw⟩
  | b1 => exact ⟨_, unitStep_b1 hw⟩
  | b2 => exact ⟨_, unitStep_b2 hw⟩
  | b3 => exact ⟨_, unitStep_b3 hw⟩
  | a1 => exact ⟨_, unitStep_a1 hw⟩
  | a2 => exact ⟨_, unitStep_a2 hw⟩
  | a3 => exact ⟨_, unitStep_a3 hw⟩
  | a4 => exact ⟨_, unitStep_a4 hw⟩
  | p1 => exact ⟨_, unitStep_p1 hw⟩
  | p2 => exact ⟨_, unitStep_p2 hw⟩
  | p3 => exact ⟨_, unitStep_p3 hw⟩
  | idle =>
    cases hc : s.cfg.state with
    | fetch =>
      have hpos := hs.config.2.2
      simp only [hc] at hpos
      rw [unitStep_fetch hw hc]
      exact State.fetchEntry_answers hpos.1
    | write => exact ⟨_, unitStep_write hw hc⟩
    | settle => exact ⟨_, unitStep_settle hw hc⟩
    | idle =>
      obtain hf | hf | hf | ⟨pin, level, hf⟩ := s.fce.state.wait_or
      · exact ⟨_, unitStep_idle hw hc hf⟩
      · exact ⟨_, (unitStep_sample hw hc hf).trans (if_pos (FceRegs.byteIndex_lt_of_sample hf hs.cursor))⟩
      · exact ⟨_, unitStep_complete hw hc hf⟩
      · exact ⟨_, unitStep_wait hw hc hf⟩

/-- An idle block carries out a host operation whose operands are legal (R230, R234). -/
theorem exec_host_answers {i : Instr} (hb : s.busy = false) (hi : i.isHost = true) (hw : i.wellFormed = true) :
    ∃ t, exec i s = .next t := by
  have hn : ¬s.busy = true := by simp [hb]
  cases i with
  | initialise | capture | configure | writeRegister => exact ⟨_, if_neg hn⟩
  | getFrame index => exact ⟨_, (if_neg hn).trans (if_pos (of_decide_eq_true hw))⟩
  | start | stop | txbyte | waitw | sample | irqMask | irqRestore | delay => simp [Instr.isHost, Instr.opClass] at hi

/-- An accepted word is a legal one (R101, R230). -/
theorem accepted_decode {w : OpWord} {i : Instr} (h : s.accepted w = some i) : decode w = .ok i := by
  unfold State.accepted at h
  split_ifs at h
  split at h
  · split_ifs at h
    cases h
    exact decode?_eq_some.mp ‹_›
  · cases h

theorem State.Inv.wordStep_answers (hs : s.Inv) (w : OpWord) : ∃ t, s.wordStep w = .next t := by
  unfold State.wordStep
  split
  · obtain ⟨hb, hi⟩ := accepted_some ‹_›
    exact exec_host_answers hb hi (decode_wellFormed (accepted_decode ‹_›))
  · exact hs.unitStep_answers

/-- R10, R254: no step of the hardware faults or is refused. -/
theorem State.Inv.step_answers (hs : s.Inv) : ∃ t, step s = .next t := by
  unfold step State.machineStep
  rw [hs.noIssue]
  cases s.env.host.head? with
  | none => exact hs.nextMoves.unitStep_answers
  | some e =>
    cases e with
    | quiet => exact hs.nextMoves.unitStep_answers
    | word w => exact hs.nextMoves.wordStep_answers w
    | reset => exact ⟨_, rfl⟩

/-! ### The obligations -/

/-- Settles O57: a busy block's step is a move of one unit, whose frame is what the others keep; an idle block with a silent
host makes only the moves of the environment. -/
theorem onlyOneUnitSteps : Obligations.OnlyOneUnitSteps := by
  intro s t hu hs
  refine ⟨fun hw => ?_, fun hw hc => ?_, fun hw hc hf => ?_, fun hb hh => ?_, fun hb hh hp => ?_,
    s.platformMask_of_masked, fun hm _ => s.platformMask_of_set hm, s.platformMask_of_leave⟩
  · have hm := unitMove_of_busy hu (busy_eq_true.mpr (.inr (.inr hw))) hs
    obtain ⟨_, _, _, _, _, rfl, -⟩ := hm.writer_frame hw
    exact ⟨rfl, rfl, rfl, rfl, rfl⟩
  · have hm := unitMove_of_busy hu (busy_eq_true.mpr (.inr (.inl hc))) hs
    obtain ⟨_, _, _, _, rfl, -⟩ := hm.configurator_frame hw hc
    exact ⟨rfl, rfl, rfl, rfl, rfl⟩
  · have hm := unitMove_of_busy hu (busy_eq_true.mpr (.inl hf)) hs
    obtain ⟨_, _, _, _, _, _, _, rfl, hmask⟩ := hm.engine_frame hw hc
    exact ⟨rfl, rfl, rfl, rfl, hmask⟩
  · exact (Host.Outcome.next.inj ((step_of_idle_silent hu.1 hh hb).symm.trans hs)).symm
  · rw [step_of_idle_silent hu.1 hh hb, nextMoves_of_nil hh hp] at hs
    exact (Host.Outcome.next.inj hs).symm

/-- Settles O9: each of the five host operations tests BUSY before anything else. -/
theorem hostOperationsAreRefusedWhileBusy : Obligations.HostOperationsAreRefusedWhileBusy := by
  intro s i hb hi
  cases i with
  | initialise | capture | getFrame | configure | writeRegister => exact if_pos hb
  | start | stop | txbyte | waitw | sample | irqMask | irqRestore | delay => simp [Instr.isHost, Instr.opClass] at hi

/-- Settles O52: the step answers, and each of its moves keeps every part of the invariant. -/
theorem everyStepKeepsTheInvariantsAndNeverStops : Obligations.EveryStepKeepsTheInvariantsAndNeverStops := by
  intro s hs
  obtain ⟨t, ht⟩ := hs.step_answers
  exact ⟨t, ht, hs.stepMove (step_next hs.noIssue ht)⟩

end Sys2Proof.Machine
end

section
/-! PROOFS of the statements about 10_state.md: what every step keeps (the cursor's invariant, the parameters), which steps own the
pins, the byte counter and the flags, which operation a step runs, and the values of reset and STATUS. -/

namespace Sys2Proof

/-! ### The decoder reads what the encoder writes -/

variable {i : Instr}

theorem decodeGetFrame_halves {x : BitVec 16} (h : x.toNat < fbLen) :
    decodeGetFrame (x.extractLsb' 8 8) (x.extractLsb' 0 8) = .ok (.getFrame x) := by
  unfold decodeGetFrame
  rw [frameIndex_halves, if_pos h]

theorem decodeWaitw_codes (pin : Pin) (level : Bool) : decodeWaitw pin.code (levelCode level) = .ok (.waitw pin level) := by
  cases pin <;> cases level <;> rfl

/-- R92, R107: the encoding of an operation with legal operands is a word that names it. -/
theorem decode_encode (h : i.wellFormed = true) : decode (encode i) = .ok i := by
  rw [decode_encode_fields]
  cases i with
  | getFrame => exact decodeGetFrame_halves (of_decide_eq_true h)
  | waitw => exact decodeWaitw_codes ..
  | initialise | capture | configure | writeRegister | start | stop | txbyte | sample | irqMask | irqRestore | delay => rfl

theorem Instr.opcode_classBits (i : Instr) : i.opcode.extractLsb' 4 4 = i.opClass.code := by
  cases i <;> simp only [Instr.opcode, Instr.opClass] <;> decide

/-- R90: bits 23:20 of every encoding are the number of its operation's class. -/
theorem encode_classBits (i : Instr) : (encode i).extractLsb' 20 4 = i.opClass.code :=
  Laws.ClassField.classBits i.opcode_classBits ..

/-- R38, R90: exactly the host operations have class number 0. -/
theorem encode_classBits_eq_host : (encode i).extractLsb' 20 4 = OpClass.code .host ↔ i.isHost = true := by
  rw [encode_classBits, Instr.isHost]
  cases i.opClass <;> decide

end Sys2Proof

namespace Sys2Proof.Machine

variable {s t : State} {i : Instr} {w : OpWord}

/-! ### The cursor -/

/-- R28: each move of a step keeps the cursor's invariant; a reset leaves the engine IDLE. -/
theorem StepMove.cursorInv (h : StepMove s t) (hc : s.fce.cursorInv) : t.fce.cursorInv := by
  cases h with
  | unit h => exact h.cursorInv hc
  | host _ h => exact h.cursorInv hc
  | reset => trivial

/-- Settles O53: every step without an issued word is one of the moves, and each keeps the invariant. -/
theorem everyStepKeepsTheCursorInvariant : Obligations.EveryStepKeepsTheCursorInvariant :=
  fun _ _ hi hc hs => (step_next hi hs).cursorInv hc

/-! ### The pins -/

/-- R31: the steps that write SCL. -/
theorem UnitMove.scl_writers (h : UnitMove s t) (hn : t.cbw.scl ≠ s.cbw.scl) : s.cbw.state = .s2 ∨ s.cbw.state = .b2 ∨
    s.cbw.state = .b3 ∨ s.cbw.state = .a2 ∨ s.cbw.state = .a4 ∨ s.cbw.state = .p2 := by
  cases h with
  | s2 h | b2 h | b3 h | a2 h | a4 h | p2 h => simp [h]
  | judge | settle => simp at hn
  | s1 | b1 | a1 | a3 | p1 | p3 | finish | fetch | poll | sample | complete | idle => exact absurd rfl hn

/-- R32: the steps that write SDA_M. -/
theorem UnitMove.sdaM_writers (h : UnitMove s t) (hn : t.cbw.sdaM ≠ s.cbw.sdaM) : s.cbw.state = .s1 ∨ s.cbw.state = .b1 ∨
    s.cbw.state = .a1 ∨ s.cbw.state = .p1 ∨ s.cbw.state = .p3 := by
  cases h with
  | s1 h | b1 h | a1 h | p1 h | p3 h => simp [h]
  | b3 => obtain ⟨-, e⟩ | ⟨-, e⟩ := s.stepB3_cases <;> simp [e] at hn
  | a4 => obtain ⟨-, e⟩ | ⟨-, e⟩ := s.stepA4_cases <;> simp [e] at hn
  | judge | settle => simp at hn
  | s2 | b2 | a2 | a3 | p2 | finish | fetch | poll | sample | complete | idle => exact absurd rfl hn

/-- R143: no host operation changes a pin by being accepted. -/
theorem HostMove.pins (h : HostMove s t) : t.cbw.scl = s.cbw.scl ∧ t.cbw.sdaM = s.cbw.sdaM := by
  cases h with
  | configure | capture | getFrame | write => exact ⟨rfl, rfl⟩

/-- Settles O29: a step is a unit's move, whose writers of each pin are known, or the acceptance of a host word. -/
theorem pinsAreWrittenOnlyByTheirSteps : Obligations.PinsAreWrittenOnlyByTheirSteps := by
  intro s t hu hs
  cases step_next hu.1 hs with
  | unit h => exact ⟨h.scl_writers, h.sdaM_writers⟩
  | host _ h => exact ⟨fun hn => absurd h.pins.1 hn, fun hn => absurd h.pins.2 hn⟩
  | reset hr => exact absurd rfl (hu.2 .reset (by simp [hr]))

/-! ### The byte counter -/

/-- R71, R187: SAMPLE moves the byte counter on by one, whatever `advance` does to the rest of the cursor. -/
theorem State.storeSample_byteIndex (hb : s.fce.byteIndex.toNat < fbLen) :
    s.storeSample.fce.byteIndex.toNat = s.fce.byteIndex.toNat + 1 := by
  have hadvance : s.storeSample.fce.byteIndex = s.fce.byteIndex + 1 := FceRegs.advance_byteIndex _
  have hlen : s.fce.byteIndex.toNat < 38400 := hb
  exact (congrArg BitVec.toNat hadvance).trans (toNat_add_one (by omega))

theorem waitState_ne_sample (pin : Pin) (level : Bool) : waitState pin level ≠ .sample := by
  cases pin <;> cases level <;> exact FceState.noConfusion

/-- R28 (f), R71: all that a step of the engine does to the byte counter. -/
theorem UnitMove.byteIndex_cases (h : UnitMove s t) (hw : s.cbw.state = .idle) (hc : s.cfg.state = .idle) :
    (s.fce.state = .sample ∧ t.fce.byteIndex.toNat = s.fce.byteIndex.toNat + 1) ∨
    (s.fce.state ≠ .sample ∧ t.fce.byteIndex = s.fce.byteIndex) := by
  obtain ⟨pin, level, hf, rfl⟩ | ⟨hf, hb, rfl⟩ | ⟨hf, rfl⟩ | ⟨hf, rfl⟩ := h.engine_cases hw hc
  · exact .inr ⟨hf ▸ waitState_ne_sample pin level, (s.fce.poll_frame ..).1⟩
  · exact .inl ⟨hf, State.storeSample_byteIndex hb⟩
  · exact .inr ⟨by simp [hf], rfl⟩
  · exact .inr ⟨by simp [hf], rfl⟩

/-- R35: while the engine runs the other two units are IDLE. -/
theorem State.unitsInv.others_idle (h : s.unitsInv) (hf : s.fce.state ≠ .idle) :
    s.cbw.state = .idle ∧ s.cfg.state = .idle :=
  ⟨by_contra fun hw => hf (h.2 hw).1, by_contra fun hc => hf (h.1 hc)⟩

/-- Settles O56: during a capture the step is the engine's, and only its SAMPLE touches the byte counter. -/
theorem byteIndexAdvancesOnlyInSample : Obligations.ByteIndexAdvancesOnlyInSample := by
  intro s t hinv hu hf hs
  obtain ⟨hw, hc⟩ := hinv.units.others_idle hf
  have hm := unitMove_of_busy hu (busy_eq_true.mpr (.inl hf)) hs
  obtain ⟨hsample, hb⟩ | ⟨hsample, hb⟩ := hm.byteIndex_cases hw hc
  · exact ⟨fun _ => hb, fun hn => absurd hsample hn⟩
  · exact ⟨fun hy => absurd hy hsample, fun _ => hb⟩

/-! ### The parameters -/

theorem UnitMove.params (h : UnitMove s t) : t.params = s.params := by
  by_cases hw : s.cbw.state = .idle
  · by_cases hc : s.cfg.state = .idle
    · obtain ⟨_, _, _, _, _, _, _, rfl, -⟩ := h.engine_frame hw hc; rfl
    · obtain ⟨_, _, _, _, rfl, -⟩ := h.configurator_frame hw hc; rfl
  · obtain ⟨_, _, _, _, _, rfl, -⟩ := h.writer_frame hw; rfl

theorem HostMove.params (h : HostMove s t) : t.params = s.params := by
  cases h with
  | configure | capture | getFrame | write => rfl

theorem StepMove.params (h : StepMove s t) : t.params = s.params := by
  cases h with
  | unit h => exact h.params
  | host _ h => exact h.params
  | reset => rfl

@[simp] theorem State.enterTxbyte_params (b : Byte) : (s.enterTxbyte b).params = s.params := by
  unfold State.enterTxbyte; split <;> rfl

/-- R40: no step of TXBYTE touches the parameters, wherever it is issued. -/
theorem State.txbyteStep_params : s.txbyteStep.params = s.params := by
  obtain ⟨-, -, -, -, -, -, -, hp, -⟩ := s.txbyteStep_frame
  exact hp

theorem State.stopStep_params : s.stopStep.params = s.params := by
  unfold State.stopStep; split <;> rfl

/-- R40: no operation writes the parameters, in its place or out of it. -/
theorem exec_params (h : exec i s = .next t) : t.params = s.params := by
  cases i with
  | initialise | capture | getFrame | configure | writeRegister => exact (exec_host_next rfl h).2.params
  | start => cases h; rw [State.startStep_frame]
  | stop => cases h; exact State.stopStep_params
  | txbyte b => cases h; exact State.txbyteStep_params.trans (State.enterTxbyte_params b)
  | sample =>
    simp only [exec, execSample] at h
    split at h
    · cases h; rfl
    · cases h
  | delay => cases h; rw [State.delayStep_frame]
  | waitw | irqMask | irqRestore => cases h; rfl

theorem issueStep_params (h : s.issueStep w = .next t) : t.params = s.params := by
  unfold State.issueStep at h
  split at h
  · exact exec_params h
  · cases h

theorem step_of_issue (hi : s.env.issue = some w) : step s = s.clearIssue.issueStep w := by
  simp [step, State.machineStep, hi]

/-- Settles O59: an issued word runs one operation, and without one the step is one of the moves; none of them writes the
parameters. -/
theorem parametersNeverChange : Obligations.ParametersNeverChange := by
  intro s t hs
  cases hi : s.env.issue with
  | some w => exact issueStep_params (s := s.clearIssue) (step_of_issue hi ▸ hs)
  | none => exact (step_next hi hs).params

/-! ### The flags -/

/-- R36: all that a unit's step does to the five flags. -/
theorem UnitMove.flags_cases (h : UnitMove s t) :
    t.flags = s.flags ∨
    (s.cbw.state = .p3 ∧ t.flags = { s.flags with wrOk := s.cbw.ok }) ∨
    (s.cfg.state = .fetch ∧ s.cfg.idx.toNat = s.params.tableLen ∧ t.flags = { s.flags with cfgOk := true }) ∨
    (s.cfg.state = .write ∧ s.flags.wrOk = false ∧ t.flags = { s.flags with cfgErr := true }) ∨
    (s.fce.state = .complete ∧ t.flags = { s.flags with irqMasked := false, frameDone := true }) := by
  cases h with
  | p3 h => exact .inr (.inl ⟨h, rfl⟩)
  | finish _ h hi => exact .inr (.inr (.inl ⟨h, hi, rfl⟩))
  | judge _ h =>
    obtain ⟨-, e⟩ | ⟨hf, e⟩ := s.judgeWrite_cases
    · exact .inl (by rw [e])
    · exact .inr (.inr (.inr (.inl ⟨h, hf, by rw [e]; rfl⟩)))
  | complete _ _ h => exact .inr (.inr (.inr (.inr ⟨h, rfl⟩)))
  | b3 => obtain ⟨-, e⟩ | ⟨-, e⟩ := s.stepB3_cases <;> exact .inl (by rw [e])
  | a4 => obtain ⟨-, e⟩ | ⟨-, e⟩ := s.stepA4_cases <;> exact .inl (by rw [e])
  | settle => obtain ⟨-, e⟩ | ⟨-, e⟩ := s.delayStep_cases <;> exact .inl (by rw [e])
  | s1 | s2 | b1 | b2 | a1 | a2 | a3 | p1 | p2 | fetch | poll | sample | idle => exact .inl rfl

/-- R120, R181: all that accepting a host operation does to the five flags. -/
theorem HostMove.flags_cases (h : HostMove s t) :
    t.flags = s.flags ∨ t.flags = { s.flags with cfgOk := false, cfgErr := false } ∨
    t.flags = { s.flags with irqMasked := true, frameDone := false } := by
  cases h with
  | getFrame | write => exact .inl rfl
  | configure => exact .inr (.inl rfl)
  | capture => exact .inr (.inr rfl)

/-- Settles O60: of a unit's step each flag has one owner; an accepted host word and a reset set none, and only the reset
touches WR_OK. -/
theorem resultFlagsAreSetOnlyByTheirSteps : Obligations.ResultFlagsAreSetOnlyByTheirSteps := by
  intro s t hi hs
  cases step_next hi hs with
  | unit h =>
    obtain e | ⟨hp3, e⟩ | ⟨hfetch, hend, e⟩ | ⟨hwrite, hfail, e⟩ | ⟨hcomplete, e⟩ := h.flags_cases <;> rw [e]
    · simp +contextual
    · simpa +contextual using fun _ => .inl hp3
    · simpa +contextual using fun _ => ⟨hfetch, hend⟩
    · simpa +contextual using fun _ => ⟨hwrite, hfail⟩
    · simpa +contextual using fun _ => hcomplete
  | host _ h => obtain e | e | e := h.flags_cases <;> rw [e] <;> simp +contextual
  | reset hr => simp [hr, Flags.reset]

/-! ### The operation a step runs -/

theorem step_of_word {rest : List HostEvent} (hi : s.env.issue = none) (hh : s.env.host = .word w :: rest) :
    step s = s.nextMoves.wordStep w := by
  simp [step, State.machineStep, hi, hh]

/-- R38, R230: with BUSY = 0 a word that names a host operation is accepted and run. -/
theorem wordStep_of_decode (hb : s.busy = false) (hd : decode w = .ok i) (hhost : i.isHost = true) :
    s.wordStep w = exec i s := by
  simp [State.wordStep, State.accepted, hb, decode?_eq_some.mpr hd, hhost]

/-- Settles O5: the presented word reaches the port after the moves of the environment, which leave BUSY as it is. -/
theorem stepRunsTheAcceptedWord : Obligations.StepRunsTheAcceptedWord :=
  fun _ _ _ _ hi hh hb hd hhost => (step_of_word hi hh).trans (wordStep_of_decode (busy_nextMoves.trans hb) hd hhost)

/-- R30: only an IDLE writer issues nothing. -/
theorem CbwRegs.state_ne_idle_of_issues {c : CbwRegs} (h : c.issues = some i) : c.state ≠ .idle := by
  intro hi
  simp [CbwRegs.issues, hi] at h

/-- R30, R35: what the writer issues is run. -/
theorem unitStep_of_cbw_issues (h : s.cbw.issues = some i) : s.unitStep = exec i s := by
  simp [State.unitStep, State.cbwStep, CbwRegs.state_ne_idle_of_issues h, h]

/-- R24, R35: what the engine issues is run while the other two units are IDLE. -/
theorem unitStep_of_fce_issues (hw : s.cbw.state = .idle) (hc : s.cfg.state = .idle) (h : s.fce.issues = some i) :
    s.unitStep = exec i s := by
  simp [State.unitStep, State.fceStep, hw, hc, h]

/-- R34, R124: in SETTLE the configurator issues DELAY. -/
theorem unitStep_eq_exec_delay (hw : s.cbw.state = .idle) (hc : s.cfg.state = .settle) : s.unitStep = exec .delay s := by
  simp [State.unitStep, State.cfgStep, hw, hc]

/-- Settles O6: the busy block's step is the running unit's, by R35's priority. -/
theorem stepRunsTheIssuedOperation : Obligations.StepRunsTheIssuedOperation := by
  intro s i hu hissue hb
  rw [step_of_busy hu hb]
  obtain h | ⟨hw, hc, rfl⟩ | ⟨hw, hc, h⟩ := hissue
  · exact unitStep_of_cbw_issues h
  · exact unitStep_eq_exec_delay hw hc
  · exact unitStep_of_fce_issues hw hc h

theorem State.withFetchWord_encode : s.withFetchWord 24 (encode i).toNat = s.placeWord (encode i) := by
  simp [State.withFetchWord, Nat.mod_eq_of_lt (encode i).isLt]

/-- An issued word that names an operation runs it (assumption 6). -/
theorem issueStep_of_decode (hd : decode w = .ok i) : s.issueStep w = exec i s := by
  simp [State.issueStep, decode?_eq_some.mpr hd]

/-- Settles O7: the class bits say where the encoding is placed, on CMD of the idle block or as the issued word, and the
decoder gives the operation back there. -/
theorem placedWordIsRunNext : Obligations.PlacedWordIsRunNext := by
  intro s i hwf
  have hd := decode_encode hwf
  rw [State.withFetchWord_encode]
  unfold State.placeWord
  refine ⟨fun hhost => ?_, fun hint => ?_⟩
  · rw [if_pos (encode_classBits_eq_host.mpr hhost)]
    exact stepRunsTheAcceptedWord _ _ _ _ rfl rfl (busy_eq_false.mpr ⟨rfl, rfl, rfl⟩) hd hhost
  · rw [if_neg (by simp [encode_classBits_eq_host, hint]), step_of_issue rfl]
    exact issueStep_of_decode hd

/-! ### STATUS and reset -/

/-- Settles O10: each value is the one `State.reset` is built with; no byte of the frame buffer is listed. -/
theorem resetLeavesTheStatedValues : Obligations.ResetLeavesTheStatedValues :=
  ⟨rfl, rfl, rfl, rfl, rfl, rfl, rfl, rfl, rfl, rfl, rfl, rfl, fun _ => rfl⟩

theorem flagBit_getLsbD {flag : Bool} {k j : Nat} (hj : j < 32) : (flagBit flag k).getLsbD j = (decide (j = k) && flag) := by
  obtain h | rfl | h := lt_trichotomy j k
  · simp [flagBit, h, h.ne]
  · simp [flagBit, hj]
  · simp [flagBit, h.ne', (Nat.sub_pos_of_lt h).ne']

/-- R37: every bit of STATUS, by its number. -/
theorem State.status_getLsbD (s : State) {j : Nat} (hj : j < 32) : s.status.getLsbD j =
    ((decide (j = 0) && s.busy) || (decide (j = 1) && s.flags.frameDone) || (decide (j = 2) && s.flags.cfgOk) ||
      (decide (j = 3) && s.flags.cfgErr) || (decide (j = 4) && s.flags.wrOk) || (decide (j = 5) && s.flags.irqMasked) ||
      (decide (16 ≤ j) && s.cfg.errIndex.getLsbD (j - 16))) := by
  have hsub : j - 16 < 32 := by omega
  simp only [State.status, BitVec.getLsbD_or, BitVec.getLsbD_shiftLeft, BitVec.getLsbD_setWidth, flagBit_getLsbD hj, hj, hsub,
    decide_true, Bool.true_and, ← decide_not, Nat.not_lt]

/-- R37: above the flags, STATUS has ERR_INDEX from bit 16 on and zeros below. -/
theorem State.status_getLsbD_of_six_le (s : State) {j : Nat} (hj : j < 32) (h6 : 6 ≤ j) :
    s.status.getLsbD j = (decide (16 ≤ j) && s.cfg.errIndex.getLsbD (j - 16)) := by
  have hne : j ≠ 0 ∧ j ≠ 1 ∧ j ≠ 2 ∧ j ≠ 3 ∧ j ≠ 4 ∧ j ≠ 5 := by omega
  rw [s.status_getLsbD hj]
  simp [hne]

/-- Settles O12: the bits by their numbers; BUSY is 0 only with the three sequencers IDLE. -/
theorem statusWordLayout : Obligations.StatusWordLayout := by
  intro s
  have hflag {j : Nat} (h : j < 6) := s.status_getLsbD (j := j) (by omega)
  refine ⟨?_, ?_, ?_, ?_, ?_, ?_, ?_, ?_, rfl⟩
  · rw [hflag (by decide), ← busy_eq_true]; simp
  · rw [hflag (by decide)]; simp
  · rw [hflag (by decide)]; simp
  · rw [hflag (by decide)]; simp
  · rw [hflag (by decide)]; simp
  · rw [hflag (by decide)]; simp
  · apply BitVec.eq_of_getLsbD_eq; intro j hj
    rw [BitVec.getLsbD_extractLsb', s.status_getLsbD_of_six_le (by omega) (by omega)]
    simp; omega
  · apply BitVec.eq_of_getLsbD_eq; intro j hj
    rw [BitVec.getLsbD_extractLsb', s.status_getLsbD_of_six_le (by omega) (by omega)]
    simp [hj]

/-- Settles O51: the reset state is idle with its lines high, and the parameters are built within their ranges. -/
theorem invariantsHoldAtReset : Obligations.InvariantsHoldAtReset where
  noIssue := rfl
  cursor := trivial
  pins := ⟨rfl, rfl⟩
  byte := State.byteInv_of_stop_or_idle (.inr (.inr (.inr rfl)))
  units := ⟨fun hn => absurd rfl hn, fun hn => absurd rfl hn⟩
  config := ⟨⟨List.length_take_le .., Nat.le_add_left ..⟩, fun _ => rfl, trivial⟩
  capture := rfl
  memory := ⟨Memory.wf_nil, List.forall_mem_nil _, Memory.wf_nil, List.forall_mem_nil _⟩

/-! ### The record of the sensor -/

/-- R41: after a write of three acknowledged bytes the record holds the value. -/
theorem State.sensorAfterWrite_of_ok (ho : s.cbw.ok = true) (hb : s.cbw.bytesel = 2) :
    Memory.read? s.sensorAfterWrite s.cbw.wrAddr.toNat = some s.cbw.wrVal := by
  simp [State.sensorAfterWrite, ho, hb, Memory.read?_write_same]

/-- R127, U6: after a failed write nothing is known of the register. -/
theorem State.sensorAfterWrite_of_failed (ho : s.cbw.ok = false) :
    Memory.read? s.sensorAfterWrite s.cbw.wrAddr.toNat = none := by
  simp [State.sensorAfterWrite, ho, Memory.read?_erase_same]

theorem State.sensorAfterWrite_other {a : Nat} (ha : a ≠ s.cbw.wrAddr.toNat) :
    Memory.read? s.sensorAfterWrite a = Memory.read? s.sensor a := by
  unfold State.sensorAfterWrite
  split
  · exact Memory.read?_write_other ha
  · exact Memory.read?_erase_other ha

/-- Settles O22: at P3 the step of STOP puts `sensorAfterWrite` in the record. -/
theorem sensorRecordAfterAWrite : Obligations.SensorRecordAfterAWrite := by
  intro s hp
  have hstop : exec .stop s = .next s.stepP3 := by simp [exec, execStop, State.stopStep, hp]
  exact ⟨_, hstop, State.sensorAfterWrite_of_ok, State.sensorAfterWrite_of_failed, fun _ => State.sensorAfterWrite_other⟩

end Sys2Proof.Machine
end

section
/-! PROOFS of the statements about 20_memory.md: what every step keeps of the memories' form, who writes the frame buffer, that a
read may be repeated, and that a capture stores the frame its trace shows. The trace of a frame is consumed piece by piece: a
wait, a pulse or an edge, a pixel, a line, the frame; what a capture has reached between two pieces is a `CaptureView`. -/

namespace Sys2Proof.Machine

variable {s t : State} {i : Instr} {w : OpWord}

/-! ### The form of the memories -/

theorem State.memoryInv_congr (hfb : t.fb = s.fb) (hsensor : t.sensor = s.sensor) : t.memoryInv ↔ s.memoryInv := by
  simp only [State.memoryInv, hfb, hsensor]

theorem State.enterTxbyte_memoryInv (b : Byte) (hm : s.memoryInv) : (s.enterTxbyte b).memoryInv := by
  unfold State.enterTxbyte; split <;> exact hm

/-- R152: TXBYTE touches neither memory. -/
theorem State.txbyteStep_memoryInv (hm : s.memoryInv) : s.txbyteStep.memoryInv := by
  obtain ⟨-, -, -, -, hfb, hsensor, -⟩ := s.txbyteStep_frame
  exact (State.memoryInv_congr hfb hsensor).mpr hm

/-- R41, R153: of STOP's steps only P3 touches a memory, the record of the sensor. -/
theorem State.stopStep_memoryInv (hm : s.memoryInv) : s.stopStep.memoryInv := by
  unfold State.stopStep
  split
  case h_2 hp3 => exact (UnitMove.p3 hp3).memoryInv hm
  all_goals exact hm

/-- R61, R187: SAMPLE stores only at an address of the frame buffer. -/
theorem State.storeSample_memoryInv (hb : s.fce.byteIndex.toNat < fbLen) (hm : s.memoryInv) : s.storeSample.memoryInv := by
  obtain ⟨hfb, hfbIn, hsensor⟩ := hm
  exact ⟨Memory.wf_write hfb, Memory.within_write hfbIn hb, hsensor⟩

theorem execSample_next (h : execSample s = .next t) : s.fce.byteIndex.toNat < fbLen ∧ t = s.storeSample := by
  unfold execSample at h
  split at h
  · exact ⟨‹_›, (Host.Outcome.next.inj h).symm⟩
  · cases h

/-- R60, R61: every operation keeps the form of the memories, in its place or out of it. -/
theorem exec_memoryInv (h : exec i s = .next t) (hm : s.memoryInv) : t.memoryInv := by
  cases i with
  | initialise | capture | getFrame | configure | writeRegister => exact (exec_host_next rfl h).2.memoryInv hm
  | start => cases h; rw [State.startStep_frame]; exact hm
  | stop => cases h; exact State.stopStep_memoryInv hm
  | txbyte b => cases h; exact State.txbyteStep_memoryInv (State.enterTxbyte_memoryInv b hm)
  | sample => obtain ⟨hb, rfl⟩ := execSample_next h; exact State.storeSample_memoryInv hb hm
  | delay => cases h; rw [State.delayStep_frame]; exact hm
  | waitw | irqMask | irqRestore => cases h; exact hm

theorem issueStep_memoryInv (h : s.issueStep w = .next t) (hm : s.memoryInv) : t.memoryInv := by
  unfold State.issueStep at h
  split at h
  · exact exec_memoryInv h hm
  · cases h

/-- R60, R282: a reset keeps the frame buffer and leaves the record of the sensor empty. -/
theorem State.applyReset_memoryInv (hm : s.memoryInv) : s.applyReset.memoryInv := by
  obtain ⟨hfb, hfbIn, -⟩ := hm
  exact ⟨hfb, hfbIn, Memory.wf_nil, List.forall_mem_nil _⟩

theorem StepMove.memoryInv (h : StepMove s t) (hm : s.memoryInv) : t.memoryInv := by
  cases h with
  | unit h => exact h.memoryInv hm
  | host _ h => exact h.memoryInv hm
  | reset => exact State.applyReset_memoryInv (s := s) hm

/-- Settles O55: an issued word runs one operation, and without one the step is one of the moves; each keeps the form. -/
theorem everyStepKeepsTheMemoryForm : Obligations.EveryStepKeepsTheMemoryForm := by
  intro s t hm hs
  cases hi : s.env.issue with
  | some w => exact issueStep_memoryInv (s := s.clearIssue) (step_of_issue hi ▸ hs) hm
  | none => exact (step_next hi hs).memoryInv hm

/-! ### Who writes the frame buffer -/

/-- R61: all that a unit's step does to the frame buffer. -/
theorem UnitMove.fb_cases (h : UnitMove s t) : t.fb = s.fb ∨
    (s.cbw.state = .idle ∧ s.cfg.state = .idle ∧ s.fce.state = .sample ∧ t = s.storeSample) := by
  by_cases hw : s.cbw.state = .idle
  · by_cases hc : s.cfg.state = .idle
    · obtain ⟨_, _, -, rfl⟩ | ⟨hf, -, rfl⟩ | ⟨-, rfl⟩ | ⟨-, rfl⟩ := h.engine_cases hw hc
      · exact .inl rfl
      · exact .inr ⟨hw, hc, hf, rfl⟩
      · exact .inl rfl
      · exact .inl rfl
    · obtain ⟨_, _, _, _, rfl, -⟩ := h.configurator_frame hw hc; exact .inl rfl
  · obtain ⟨_, _, _, _, _, rfl, -⟩ := h.writer_frame hw; exact .inl rfl

/-- R69, R181: no host operation writes the frame buffer by being accepted. -/
theorem HostMove.fb (h : HostMove s t) : t.fb = s.fb := by
  cases h with
  | configure | capture | getFrame | write => rfl

/-- R187, R193: SAMPLE changes no byte but the one at the byte counter. -/
theorem State.storeSample_readFrame_other {a : Nat} (ha : a ≠ s.fce.byteIndex.toNat) :
    s.storeSample.readFrame a = s.readFrame a :=
  s.readFrame_writeFrame_other _ ha

/-- Settles O58: of all moves only the engine's SAMPLE touches the frame buffer, and it stores one byte. -/
theorem onlySampleWritesTheFrameBuffer : Obligations.OnlySampleWritesTheFrameBuffer := by
  intro s t hi hs
  cases step_next hi hs with
  | unit h =>
    obtain hfb | ⟨hw, hc, hf, rfl⟩ := h.fb_cases
    · exact .inl hfb
    · exact .inr ⟨hw, hc, hf, fun _ ha => State.storeSample_readFrame_other ha⟩
  | host _ h => exact .inl h.fb
  | reset => exact .inl rfl

/-! ### Reading a byte -/

/-- R234: a GET_FRAME that answers found the block idle and the address legal, and wrote RDATA only. -/
theorem execGetFrame_next {index : BitVec 16} (h : execGetFrame index s = .next t) :
    s.busy = false ∧ index.toNat < fbLen ∧ t = { s with rdata := s.readFrame index.toNat } := by
  unfold execGetFrame at h
  split_ifs at h with hb hlt
  exact ⟨eq_false_of_ne_true hb, hlt, (Host.Outcome.next.inj h).symm⟩

theorem execGetFrame_of_idle {index : BitVec 16} (hb : s.busy = false) (hlt : index.toNat < fbLen) :
    execGetFrame index s = .next { s with rdata := s.readFrame index.toNat } := by
  simp [execGetFrame, hb, hlt]

/-- Settles O16: the first read changed RDATA only, on which neither BUSY nor the byte read depends. -/
theorem getFrameIsRepeatable : Obligations.GetFrameIsRepeatable := by
  intro s t index h
  obtain ⟨hb, hlt, rfl⟩ := execGetFrame_next h
  exact execGetFrame_of_idle hb hlt

/-! ### A capture in progress, and the ticks it consumes -/

variable {x : Snapshot} {xs ys rest : List Snapshot} {pin : Pin} {level : Bool} {b b0 b1 : Byte}

/-- What a capture moves while it consumes ticks: the engine's registers and the frame buffer. -/
structure CaptureView where
  fce : FceRegs
  fb : Memory

/-- The block captures: undisturbed, with the writer and the configurator IDLE, it stands at `v`, and the snapshots listed next
are `xs`. -/
structure State.Capturing (s : State) (v : CaptureView) (xs : List Snapshot) : Prop where
  undisturbed : s.undisturbed
  writer : s.cbw.state = .idle
  configurator : s.cfg.state = .idle
  fce : s.fce = v.fce
  fb : s.fb = v.fb
  pins : s.env.pins = xs

/-- One step a tick, the snapshots `xs` take a capture from `v` to `v'`, whatever comes after them. -/
def Consumes (xs : List Snapshot) (v v' : CaptureView) : Prop :=
  ∀ (s : State) (rest : List Snapshot), s.Capturing v (xs ++ rest) →
    ∃ t, run xs.length s = .next t ∧ t.Capturing v' rest

variable {v v' v'' : CaptureView}

theorem Consumes.nil : Consumes [] v v := fun s _ hs => ⟨s, rfl, hs⟩

theorem Consumes.append (h : Consumes xs v v') (h' : Consumes ys v' v'') : Consumes (xs ++ ys) v v'' := by
  intro s rest hs
  rw [List.append_assoc] at hs
  obtain ⟨t, hrun, ht⟩ := h s (ys ++ rest) hs
  obtain ⟨u, hrun', hu⟩ := h' t rest ht
  exact ⟨u, by rw [List.length_append, run_add hrun, hrun'], hu⟩

/-- Pieces that each take the capture from one view of a sequence to the next take it, one after the other, to the last. -/
theorem Consumes.flatten {pieces : List (List Snapshot)} {views : Nat → CaptureView}
    (h : ∀ k p, pieces[k]? = some p → Consumes p (views k) (views (k + 1))) :
    Consumes pieces.flatten (views 0) (views pieces.length) := by
  induction pieces generalizing views with
  | nil => exact .nil
  | cons p ps ih => exact (h 0 p rfl).append (ih (views := fun k => views (k + 1)) fun k q hq => h (k + 1) q hq)

/-- The host's and the platform's moves of a step do not disturb the capture. -/
theorem State.Capturing.nextMoves (hs : s.Capturing v xs) : s.nextMoves.Capturing v xs :=
  ⟨undisturbed_nextMoves hs.undisturbed, hs.writer, hs.configurator, hs.fce, hs.fb, hs.pins⟩

/-- While the engine runs, a step is its own. -/
theorem State.Capturing.step_eq (hs : s.Capturing v xs) (hf : v.fce.state ≠ .idle) : step s = s.nextMoves.unitStep :=
  step_of_busy hs.undisturbed (busy_eq_true.mpr (.inl (hs.fce ▸ hf)))

/-- R182: one poll of the snapshot `x`, which it consumes. -/
theorem State.Capturing.polled (hs : s.Capturing v (x :: rest)) (pin : Pin) (level : Bool) :
    (s.polled pin level).Capturing { v with fce := v.fce.poll pin level (x.pin pin) } rest where
  undisturbed := hs.undisturbed
  writer := hs.writer
  configurator := hs.configurator
  fce := by rw [← hs.fce, ← s.snapshot_of_pins hs.pins]; rfl
  fb := hs.fb
  pins := congrArg List.tail hs.pins

/-- R187: SAMPLE at the snapshot `x`, which it consumes. -/
theorem State.Capturing.storeSample (hs : s.Capturing v (x :: rest)) :
    s.storeSample.Capturing
      { fce := { v.fce with byteIndex := v.fce.byteIndex + 1 }.advance
        fb := Memory.write v.fb v.fce.byteIndex.toNat x.pix8 } rest where
  undisturbed := hs.undisturbed
  writer := hs.writer
  configurator := hs.configurator
  fce := by rw [← hs.fce]; rfl
  fb := by rw [← hs.fb, ← hs.fce, ← s.snapshot_of_pins hs.pins]; rfl
  pins := congrArg List.tail hs.pins

/-- R16, R182: a poll is a step and consumes one tick. -/
theorem Consumes.poll (hf : v.fce.state = waitState pin level) :
    Consumes [x] v { v with fce := v.fce.poll pin level (x.pin pin) } := by
  intro s rest hs
  have hs' := hs.nextMoves
  have hstep := (hs.step_eq (hf ▸ waitState_ne_idle pin level)).trans
    (unitStep_wait hs'.writer hs'.configurator (hs'.fce ▸ hf))
  exact ⟨_, run_succ_of_next hstep, hs'.polled pin level⟩

/-- R187: SAMPLE is a step, consumes one tick and stores the byte it shows. -/
theorem Consumes.sample (hf : v.fce.state = .sample) (hb : v.fce.byteIndex.toNat < fbLen) :
    Consumes [x] v
      { fce := { v.fce with byteIndex := v.fce.byteIndex + 1 }.advance
        fb := Memory.write v.fb v.fce.byteIndex.toNat x.pix8 } := by
  intro s rest hs
  have hs' := hs.nextMoves
  have hexec : execSample s.nextMoves = .next s.nextMoves.storeSample := if_pos (hs'.fce ▸ hb)
  have hstep := (hs.step_eq (by simp [hf])).trans
    ((unitStep_sample hs'.writer hs'.configurator (hs'.fce ▸ hf)).trans hexec)
  exact ⟨_, run_succ_of_next hstep, hs'.storeSample⟩

/-! ### Waits, pulses and edges -/

/-- R182: ticks at the level leave the capture in its wait. -/
theorem Consumes.stay (hf : v.fce.state = waitState pin level) (h : ∀ y ∈ xs, y.pin pin = level) : Consumes xs v v := by
  induction xs with
  | nil => exact .nil
  | cons y ys ih =>
    have hsame : v.fce.poll pin level (y.pin pin) = v.fce := by rw [h y (by simp), FceRegs.poll_same, ← hf]
    have hpoll : Consumes [y] v v := by simpa only [hsame] using Consumes.poll (x := y) hf
    exact hpoll.append (ih fun z hz => h z (List.mem_cons_of_mem y hz))

/-- R182, R194: a wait ends with the first tick at the other level. -/
theorem Consumes.wait (hf : v.fce.state = waitState pin level) (h : ∀ y ∈ xs, y.pin pin = level) (hx : x.pin pin = !level) :
    Consumes (xs ++ [x]) v { v with fce := v.fce.leaveWait pin level } := by
  have hpoll := Consumes.poll (x := x) hf
  rw [hx, FceRegs.poll_other] at hpoll
  exact (Consumes.stay hf h).append hpoll

/-- A line that stands at a level, swings to the other and comes back takes the engine through the two waits for it. -/
theorem Consumes.swing (hf : v.fce.state = waitState pin level)
    (hf' : (v.fce.leaveWait pin level).state = waitState pin (!level)) (h : ∀ y ∈ xs, y.pin pin = level) (hne : ys ≠ [])
    (h' : ∀ y ∈ ys, y.pin pin = !level) (hx : x.pin pin = level) :
    Consumes (xs ++ ys ++ [x]) v { v with fce := (v.fce.leaveWait pin level).leaveWait pin (!level) } := by
  obtain ⟨y, ys, rfl⟩ := List.exists_cons_of_ne_nil hne
  obtain ⟨hy, hys⟩ := List.forall_mem_cons.mp h'
  have hwait := (Consumes.wait hf h hy).append (Consumes.wait hf' hys (hx.trans (Bool.not_not level).symm))
  simpa using hwait

/-- R105: a pulse takes the engine through the wait while its line is low and the wait while it is high. -/
theorem Consumes.pulse (hf : v.fce.state = waitState pin false)
    (hf' : (v.fce.leaveWait pin false).state = waitState pin true) (h : PulseTrace pin xs) :
    Consumes xs v { v with fce := (v.fce.leaveWait pin false).leaveWait pin true } := by
  obtain ⟨low, high, x, rfl, hne, hlow, hhigh, hx⟩ := h
  exact Consumes.swing hf hf' hlow hne hhigh hx

/-- R183, R184: the VSYNC pulse ends AwaitFrameStart. -/
theorem Consumes.vsyncPulse (hf : v.fce.state = .vsWhileLow) (h : PulseTrace .vsync xs) :
    Consumes xs v { v with fce := { v.fce with pulse := false, state := .hsWhileLow } } :=
  Consumes.pulse hf rfl h

/-- R185: the first HSYNC pulse is counted. -/
theorem Consumes.firstHsyncPulse (hf : v.fce.state = .hsWhileLow) (hp : v.fce.pulse = false) (h : PulseTrace .hsync xs) :
    Consumes xs v { v with fce := { v.fce with pulse := true, state := .hsWhileLow } } := by
  simpa [FceRegs.leaveWait, hp] using Consumes.pulse hf rfl h

/-- R185: the second HSYNC pulse begins the line. -/
theorem Consumes.secondHsyncPulse (hf : v.fce.state = .hsWhileLow) (hp : v.fce.pulse = true) (h : PulseTrace .hsync xs) :
    Consumes xs v { v with fce := { v.fce with pulse := false, column := 0, edge := 0, state := .pkWhileHigh } } := by
  simpa [FceRegs.leaveWait, hp] using Consumes.pulse hf rfl h

/-- R186: an edge takes the engine through its two PCLK waits. -/
theorem Consumes.edge (hf : v.fce.state = .pkWhileHigh) (h : EdgeTrace xs) :
    Consumes xs v { v with fce := { v.fce with state := .pkWhileLow }.leaveWait .pclk false } := by
  obtain ⟨high, low, x, rfl, hne, hhigh, hlow, hx⟩ := h
  exact Consumes.swing (pin := .pclk) (level := true) hf rfl hhigh hne hlow hx

/-! ### One pixel -/

/-- `advance` does not read the state it leaves (R188). -/
theorem FceRegs.advance_of_state (f : FceRegs) (q : FceState) : { f with state := q }.advance = f.advance := rfl

/-- R186 to R188: one of the first two edges of a pixel, and the tick after it, which is sampled. -/
theorem Consumes.sampledEdge (hf : v.fce.state = .pkWhileHigh) (he : v.fce.edge.toNat < 2)
    (hb : v.fce.byteIndex.toNat < fbLen) (h : EdgeTrace xs) (hx : x.pix8 = b) :
    Consumes (xs ++ [x]) v
      { fce := { v.fce with byteIndex := v.fce.byteIndex + 1, edge := v.fce.edge + 1 }
        fb := Memory.write v.fb v.fce.byteIndex.toNat b } := by
  have hne : v.fce.edge ≠ 3 := fun h3 => by simp [h3] at he
  have hleave : { v.fce with state := .pkWhileLow }.leaveWait .pclk false = { v.fce with state := .sample } := if_pos he
  have hadvance : { v.fce with state := .sample, byteIndex := v.fce.byteIndex + 1 }.advance =
      { v.fce with byteIndex := v.fce.byteIndex + 1, edge := v.fce.edge + 1 } := by
    rw [FceRegs.advance, if_pos hne, ← hf]
  have hedge := Consumes.edge hf h
  rw [hleave] at hedge
  have hsample := hedge.append (Consumes.sample (x := x) rfl hb)
  rwa [hadvance, hx] at hsample

/-- R186, R188: the last two edges of a pixel move the cursor only. -/
theorem Consumes.skippedEdge (hf : v.fce.state = .pkWhileHigh) (he : 2 ≤ v.fce.edge.toNat) (h : EdgeTrace xs) :
    Consumes xs v { v with fce := v.fce.advance } := by
  have hedge := Consumes.edge hf h
  rwa [FceRegs.leaveWait, if_neg (show ¬v.fce.edge.toNat < 2 by omega), FceRegs.advance_of_state] at hedge

/-- R105 (PIXEL), R204: a pixel stores the bytes shown after its first two edges at the next two addresses, and its fourth edge
moves the cursor on. -/
theorem Consumes.pixel (hf : v.fce.state = .pkWhileHigh) (he : v.fce.edge = 0) (hb : v.fce.byteIndex.toNat + 1 < fbLen)
    (h : PixelTrace b0 b1 xs) :
    Consumes xs v
      { fce := { v.fce with byteIndex := v.fce.byteIndex + 2, edge := 3 }.advance
        fb := Memory.write (Memory.write v.fb v.fce.byteIndex.toNat b0) (v.fce.byteIndex.toNat + 1) b1 } := by
  obtain ⟨e0, x0, e1, x1, e2, e3, rfl, h0, hx0, h1, hx1, h2, h3⟩ := h
  have hlen : v.fce.byteIndex.toNat + 1 < 38400 := hb
  have hnext : (v.fce.byteIndex + 1).toNat = v.fce.byteIndex.toNat + 1 := toNat_add_one (by omega)
  have first := Consumes.sampledEdge hf (by simp [he]) (Nat.lt_of_succ_lt hb) h0 hx0
  have second := first.append (Consumes.sampledEdge hf (by simp [he]) (by rwa [hnext]) h1 hx1)
  have third := second.append (Consumes.skippedEdge hf (by simp [he]) h2)
  have fourth := third.append (Consumes.skippedEdge (by simp [FceRegs.advance, he]) (by simp [FceRegs.advance, he]) h3)
  simpa [FceRegs.advance, he, BitVec.add_assoc, Nat.mod_eq_of_lt (show v.fce.byteIndex.toNat + 1 < 65536 by omega)]
    using fourth

/-! ### The cursor along a frame -/

/-- The frame buffer `fb` with `P` stored at the addresses below `n`, one after the other. -/
def storedBelow (P : Nat → Byte) (fb : Memory) : Nat → Memory
  | 0 => fb
  | n + 1 => Memory.write (storedBelow P fb n) n (P n)

/-- The engine at the start of line `row`, 120 for the end of the frame; `m` is the saved mask state. -/
def lineCursor (m : IrqState) (row : Nat) : FceRegs where
  state := if row < 120 then .hsWhileLow else .complete
  line := BitVec.ofNat 7 row
  column := if row = 0 then 0 else 160
  byteIndex := BitVec.ofNat 16 (rasterAddress row 0)
  edge := 0
  pulse := false
  irqSaved := m

/-- The engine at the start of pixel `col` of line `row`; past the last pixel it stands at the next line. -/
def pixelCursor (m : IrqState) (row col : Nat) : FceRegs :=
  if col < 160 then
    { state := .pkWhileHigh, line := BitVec.ofNat 7 row, column := BitVec.ofNat 8 col,
      byteIndex := BitVec.ofNat 16 (rasterAddress row col), edge := 0, pulse := false, irqSaved := m }
  else lineCursor m (row + 1)

/-- A capture of `P` over the frame buffer `fb`, at the start of line `row`. -/
def lineView (m : IrqState) (P : Nat → Byte) (fb : Memory) (row : Nat) : CaptureView :=
  ⟨lineCursor m row, storedBelow P fb (rasterAddress row 0)⟩

/-- A capture of `P` over the frame buffer `fb`, at the start of pixel `col` of line `row`. -/
def pixelView (m : IrqState) (P : Nat → Byte) (fb : Memory) (row col : Nat) : CaptureView :=
  ⟨pixelCursor m row col, storedBelow P fb (rasterAddress row col)⟩

variable {m : IrqState} {P : Nat → Byte} {fb : Memory} {row col n : Nat}

theorem read?_storedBelow {a : Nat} (ha : a < n) : Memory.read? (storedBelow P fb n) a = some (P a) := by
  induction n with
  | zero => exact absurd ha (Nat.not_lt_zero a)
  | succ n ih =>
    obtain h | rfl := Nat.lt_succ_iff_lt_or_eq.mp ha
    · exact (Memory.read?_write_other h.ne).trans (ih h)
    · exact Memory.read?_write_same

theorem rasterAddress_succ : rasterAddress row (col + 1) = rasterAddress row col + 2 := by
  simp only [rasterAddress, Config.width]; omega

/-- R97: the line after the last pixel begins where the pixels end. -/
theorem rasterAddress_line_end : rasterAddress row 160 = rasterAddress (row + 1) 0 := by
  simp only [rasterAddress, Config.width]; omega

/-- R67: both bytes of every pixel lie in the frame buffer. -/
theorem rasterAddress_lt (hr : row < 120) (hc : col < 160) : rasterAddress row col + 1 < fbLen := by
  simp only [rasterAddress, Config.width, fbLen]; omega

theorem read?_lineView {a : Nat} (ha : a < rasterAddress row 0) : Memory.read? (lineView m P fb row).fb a = some (P a) :=
  read?_storedBelow ha

theorem pixelView_line_end : pixelView m P fb row 160 = lineView m P fb (row + 1) := by
  simp [pixelView, pixelCursor, lineView, rasterAddress_line_end]

/-- R188: the fourth edge of a pixel takes the cursor to the next one. -/
theorem pixelCursor_advance (hr : row < 120) (hc : col < 160) :
    { pixelCursor m row col with
        byteIndex := (pixelCursor m row col).byteIndex + 2, edge := 3 }.advance = pixelCursor m row (col + 1) := by
  have hcol : (BitVec.ofNat 8 col).toNat = col := by simp; omega
  have hline : (BitVec.ofNat 7 row).toNat = row := by simp; omega
  by_cases hnext : col + 1 < 160
  · simp [FceRegs.advance, pixelCursor, hc, hcol, hnext, rasterAddress_succ, BitVec.ofNat_add]
  · obtain rfl : col = 159 := by omega
    have hend : rasterAddress (row + 1) 0 = rasterAddress row 159 + 2 := rasterAddress_line_end.symm.trans rasterAddress_succ
    by_cases hlast : row + 1 < 120 <;>
      simp [FceRegs.advance, pixelCursor, lineCursor, hline, hlast, hend, BitVec.ofNat_add]

/-! ### A line, and the frame -/

/-- R97, R105: on its trace a pixel stores the pattern's bytes for its place in the frame. -/
theorem Consumes.pixelOfLine (hr : row < 120) (hc : col < 160)
    (h : PixelTrace (P (rasterAddress row col)) (P (rasterAddress row col + 1)) xs) :
    Consumes xs (pixelView m P fb row col) (pixelView m P fb row (col + 1)) := by
  have hlt : rasterAddress row col + 1 < 38400 := rasterAddress_lt hr hc
  have hstate : (pixelCursor m row col).state = .pkWhileHigh := by simp [pixelCursor, hc]
  have hedge : (pixelCursor m row col).edge = 0 := by simp [pixelCursor, hc]
  have hbyte : (pixelCursor m row col).byteIndex.toNat = rasterAddress row col := by simp [pixelCursor, hc]; omega
  have hpixel := Consumes.pixel (v := pixelView m P fb row col) hstate hedge (hbyte ▸ hlt) h
  simp only [pixelView, pixelCursor_advance hr hc, hbyte, rasterAddress_succ] at hpixel ⊢
  exact hpixel

/-- R185: two HSYNC pulses take the engine to the first pixel of the line. -/
theorem Consumes.lineStart (hr : row < 120) (h : PulseTrace .hsync xs) (h' : PulseTrace .hsync ys) :
    Consumes (xs ++ ys) (lineView m P fb row) (pixelView m P fb row 0) := by
  have hstate : (lineCursor m row).state = .hsWhileLow := by simp [lineCursor, hr]
  exact (Consumes.firstHsyncPulse (v := lineView m P fb row) hstate rfl h).append (Consumes.secondHsyncPulse rfl rfl h')

/-- R205: the trace of a line stores its 320 bytes and takes the engine to the next line. -/
theorem Consumes.line (hr : row < 120) (h : LineTrace P row xs) :
    Consumes xs (lineView m P fb row) (lineView m P fb (row + 1)) := by
  obtain ⟨p1, p2, pixels, rfl, h1, h2, hlen, hpx⟩ := h
  have hpixels : Consumes pixels.flatten (pixelView m P fb row 0) (pixelView m P fb row pixels.length) :=
    Consumes.flatten fun col px hcol =>
      Consumes.pixelOfLine hr (hlen ▸ (List.getElem?_eq_some_iff.mp hcol).1) (hpx col px hcol)
  rw [hlen, pixelView_line_end] at hpixels
  exact (Consumes.lineStart hr h1 h2).append hpixels

/-- What CAPTURE's acceptance makes of the cursor (R181). -/
def startCursor (m : IrqState) : FceRegs where
  state := .vsWhileLow
  line := 0
  column := 0
  byteIndex := 0
  edge := 0
  pulse := false
  irqSaved := m

/-- R205: the trace of a frame takes a capture from its start to COMPLETE with every byte stored. -/
theorem Consumes.frame (h : FrameTrace P xs) : Consumes xs ⟨startCursor m, fb⟩ (lineView m P fb 120) := by
  obtain ⟨p, lines, rfl, hp, hlen, hln⟩ := h
  have hpulse : Consumes p ⟨startCursor m, fb⟩ (lineView m P fb 0) :=
    Consumes.vsyncPulse (v := ⟨startCursor m, fb⟩) rfl hp
  have hlines : Consumes lines.flatten (lineView m P fb 0) (lineView m P fb lines.length) :=
    Consumes.flatten fun row ln hrow =>
      Consumes.line (hlen ▸ (List.getElem?_eq_some_iff.mp hrow).1) (hln row ln hrow)
  exact hpulse.append (hlen ▸ hlines)

/-! ### The capture as a whole -/

/-- R181: the state that accepting CAPTURE leaves. -/
theorem State.startCapture_capturing (hu : s.undisturbed) (hb : s.busy = false) (hp : s.env.pins = xs) :
    s.startCapture.Capturing ⟨startCursor s.irqMask, s.fb⟩ xs := by
  obtain ⟨-, hc, hw⟩ := busy_eq_false.mp hb
  exact ⟨hu, hw, hc, rfl, rfl, hp⟩

/-- R190: the step COMPLETE. -/
theorem State.Capturing.step_complete (hs : s.Capturing v xs) (hf : v.fce.state = .complete) :
    step s = .next s.nextMoves.completeCapture :=
  have hs' := hs.nextMoves
  (hs.step_eq (by simp [hf])).trans (unitStep_complete hs'.writer hs'.configurator (hs'.fce ▸ hf))

/-- Settles O48: the trace takes the started capture to COMPLETE at the end of the frame, and that step restores the mask that
the start saved. -/
theorem captureReproducesTheFrame : Obligations.CaptureReproducesTheFrame := by
  intro s P xs rest hu hb hpins htrace
  obtain ⟨t, hrun, ht⟩ := Consumes.frame htrace s.startCapture rest (State.startCapture_capturing hu hb hpins)
  have hrun' : run (xs.length + 1) s.startCapture = .next t.nextMoves.completeCapture :=
    (run_add hrun).trans (run_succ_of_next (ht.step_complete rfl))
  have hcursor : t.fce = lineCursor s.irqMask 120 := ht.fce
  have hread (i : Nat) (hi : i < 38400) : Memory.read? t.fb i = some (P i) :=
    (congrArg (Memory.read? · i) ht.fb).trans (read?_lineView hi)
  refine ⟨_, hrun', busy_eq_false.mpr ⟨rfl, ht.configurator, ht.writer⟩, rfl, rfl, ?_, ht.pins, ?_, ?_, ?_, fun i hi => ?_⟩
  · exact congrArg FceRegs.irqSaved hcursor
  · exact congrArg FceRegs.line hcursor
  · exact congrArg FceRegs.column hcursor
  · exact congrArg FceRegs.byteIndex hcursor
  · exact congrArg (Option.getD · _) (hread i hi)

end Sys2Proof.Machine
end

section
/-! PROOFS of the statements about 30_encoding.md: the decoder and the encoder are inverse to each other, the opcode table selects
the decoded words, a refused word changes nothing, what a write puts on the wire, and what a pixel stores. -/

namespace Sys2Proof

variable {op a b : Byte} {w : OpWord} {i : Instr} {r : OpRow}

/-! ### A legal word has one spelling -/

/-- An operation has the opcode and the operands of a word's three fields. -/
abbrev Instr.spells (i : Instr) (op a b : Byte) : Prop := i.opcode = op ∧ i.operandA = a ∧ i.operandB = b

/-- R91, R92: an operation without operands is spelt with two zeros. -/
theorem decodeNoOperand_spells {j : Instr} (h : decodeNoOperand i a b = .ok j) (hi : i.spells op 0 0) : j.spells op a b := by
  unfold decodeNoOperand at h
  split_ifs at h with h0
  obtain ⟨rfl, rfl⟩ := h0
  exact Except.ok.inj h ▸ hi

theorem decodeGetFrame_spells (h : decodeGetFrame a b = .ok i) : i.spells 0x03 a b := by
  unfold decodeGetFrame at h
  split_ifs at h
  rw [← Except.ok.inj h]
  exact ⟨rfl, frameIndex_high a b, frameIndex_low a b⟩

theorem decodeTxbyte_spells (h : decodeTxbyte a b = .ok i) : i.spells 0x12 a b := by
  unfold decodeTxbyte at h
  split_ifs at h with ha
  rw [← Except.ok.inj h]
  exact ⟨rfl, ha.symm, rfl⟩

theorem Pin.code_of_ofCode {p : Pin} (h : Pin.ofCode a = some p) : p.code = a := by
  unfold Pin.ofCode at h
  split_ifs at h with ha ha ha <;> rw [← Option.some.inj h, ha] <;> rfl

theorem decodeWaitw_spells (h : decodeWaitw a b = .ok i) : i.spells 0x20 a b := by
  unfold decodeWaitw at h
  split at h
  · cases h
  · have hpin := Pin.code_of_ofCode ‹_›
    split_ifs at h with hb hb <;> rw [← Except.ok.inj h]
    · exact ⟨rfl, hpin, hb.symm⟩
    · exact ⟨rfl, hpin, hb.symm⟩

theorem decodeHost_spells (h : decodeHost op a b = .ok i) : i.spells op a b := by
  unfold decodeHost at h
  split_ifs at h <;> subst op
  · exact decodeNoOperand_spells h ⟨rfl, rfl, rfl⟩
  · exact decodeNoOperand_spells h ⟨rfl, rfl, rfl⟩
  · exact decodeGetFrame_spells h
  · exact decodeNoOperand_spells h ⟨rfl, rfl, rfl⟩
  · exact Except.ok.inj h ▸ ⟨rfl, rfl, rfl⟩

theorem decodeTransport_spells (h : decodeTransport op a b = .ok i) : i.spells op a b := by
  unfold decodeTransport at h
  split_ifs at h <;> subst op
  · exact decodeNoOperand_spells h ⟨rfl, rfl, rfl⟩
  · exact decodeNoOperand_spells h ⟨rfl, rfl, rfl⟩
  · exact decodeTxbyte_spells h

theorem decodeCapture_spells (h : decodeCapture op a b = .ok i) : i.spells op a b := by
  unfold decodeCapture at h
  split_ifs at h <;> subst op
  · exact decodeWaitw_spells h
  all_goals exact decodeNoOperand_spells h ⟨rfl, rfl, rfl⟩

theorem decodeFields_spells (h : decodeFields op a b = .ok i) : i.spells op a b := by
  unfold decodeFields at h
  split_ifs at h
  · exact decodeHost_spells h
  · exact decodeTransport_spells h
  · exact decodeCapture_spells h

/-- R90 to R92, R107: the word that an operation was read from is its encoding. -/
theorem encode_of_decode (h : decode w = .ok i) : encode i = w := by
  obtain ⟨hop, ha, hb⟩ := decodeFields_spells h
  rw [encode, hop, ha, hb, OpWord.pack_fields]

/-! ### The rows of the opcode table, field by field -/

/-- Every row asks for a whole opcode, and for zeros in the operand bits of its mask (R107). -/
theorem opTable_fields : ∀ r ∈ opTable, r.mask.opcode = 0xFF ∧ r.pattern.fieldA = 0 ∧ r.pattern.fieldB = 0 := by decide

/-- R90: a word is what its three fields are. -/
theorem OpWord.eq_iff_fields {w w' : OpWord} :
    w = w' ↔ w.opcode = w'.opcode ∧ w.fieldA = w'.fieldA ∧ w.fieldB = w'.fieldB := by
  refine ⟨fun h => h ▸ ⟨rfl, rfl, rfl⟩, fun ⟨hop, ha, hb⟩ => ?_⟩
  rw [← OpWord.pack_fields w, hop, ha, hb, OpWord.pack_fields]

theorem OpWord.opcode_and (w m : OpWord) : (w &&& m).opcode = w.opcode &&& m.opcode := BitVec.extractLsb'_and ..
theorem OpWord.fieldA_and (w m : OpWord) : (w &&& m).fieldA = w.fieldA &&& m.fieldA := BitVec.extractLsb'_and ..
theorem OpWord.fieldB_and (w m : OpWord) : (w &&& m).fieldB = w.fieldB &&& m.fieldB := BitVec.extractLsb'_and ..

theorem and_ff (a : Byte) : a &&& 0xFF = a := BitVec.and_allOnes

/-- R107: a row selects a word by its fields. -/
theorem OpRow.selects_iff (hr : r ∈ opTable) : r.selects w = true ↔
    w.opcode = r.pattern.opcode ∧ w.fieldA &&& r.mask.fieldA = 0 ∧ w.fieldB &&& r.mask.fieldB = 0 ∧
      r.limit.holds w = true := by
  obtain ⟨hmask, hA, hB⟩ := opTable_fields r hr
  simp only [OpRow.selects, Bool.and_eq_true, decide_eq_true_iff, OpWord.eq_iff_fields, OpWord.opcode_and,
    OpWord.fieldA_and, OpWord.fieldB_and, hmask, hA, hB, and_ff, and_assoc]

/-- The low half of a word is its two operand fields (R90). -/
theorem OpWord.extractLsb'_operands (w : OpWord) : w.extractLsb' 0 16 = frameIndex w.fieldA w.fieldB := by
  apply BitVec.eq_of_getLsbD_eq; intro i hi
  rw [frameIndex_getLsbD, BitVec.getLsbD_extractLsb']
  split
  · simp [OpWord.fieldB, *]
  · simp [OpWord.fieldA, hi]; rw [show 8 + (i - 8) = i by omega]; simp; omega

/-- R101: GET_FRAME's constraint is that its index lies in the frame buffer. -/
theorem OperandLimit.frameIndex_holds :
    OperandLimit.frameIndex.holds w = true ↔ (Instr.getFrame (Sys2Proof.frameIndex w.fieldA w.fieldB)).wellFormed = true := by
  simp only [OperandLimit.holds, Instr.wellFormed, OpWord.extractLsb'_operands, decide_eq_true_eq, fbLen]
  omega

/-- R101: WAITW's constraint is on the pin. -/
theorem OperandLimit.pinCode_holds : OperandLimit.pinCode.holds w = true ↔ w.fieldA.toNat ≤ 2 := decide_eq_true_iff

/-! ### The table selects the decoded words -/

theorem exists_pin_code (h : a.toNat ≤ 2) : ∃ pin : Pin, a = pin.code := by
  obtain h | h | h : a.toNat = 0 ∨ a.toNat = 1 ∨ a.toNat = 2 := by omega
  · exact ⟨.vsync, BitVec.eq_of_toNat_eq h⟩
  · exact ⟨.hsync, BitVec.eq_of_toNat_eq h⟩
  · exact ⟨.pclk, BitVec.eq_of_toNat_eq h⟩

theorem exists_levelCode (h : b &&& 0xFE = 0) : ∃ level, b = levelCode level := by
  revert b; decide

/-- A word with the fields of an operation's encoding decodes to it. -/
theorem decode_of_spells (hwf : i.wellFormed = true) (h : i.spells w.opcode w.fieldA w.fieldB) : decode w = .ok i := by
  obtain ⟨hop, ha, hb⟩ := h
  rw [← OpWord.pack_fields w, ← hop, ← ha, ← hb]
  exact decode_encode hwf

/-- R107: a row whose mask is full selects one word. -/
theorem decode_of_selects_full {mnemonic : String} {limit : OperandLimit}
    (h : (⟨mnemonic, 0xFFFFFF, encode i, limit⟩ : OpRow).selects w = true) (hwf : i.wellFormed = true) : decode w = .ok i := by
  have hw : w &&& BitVec.allOnes 24 = encode i := of_decide_eq_true (Bool.and_eq_true_iff.mp h).1
  rw [← BitVec.and_allOnes (x := w), hw]
  exact decode_encode hwf

/-- R107: a word that a row selects decodes to an operation of the row's mnemonic. -/
theorem decode_of_selects (hr : r ∈ opTable) (h : r.selects w = true) : ∃ i, decode w = .ok i ∧ i.mnemonic = r.mnemonic := by
  obtain ⟨hop, ha, hb, hlimit⟩ := (OpRow.selects_iff hr).mp h
  simp only [opTable, List.mem_cons, List.not_mem_nil, or_false] at hr
  obtain rfl | rfl | rfl | rfl | rfl | rfl | rfl | rfl | rfl | rfl | rfl | rfl | rfl := hr
  · exact ⟨.initialise, decode_of_selects_full h rfl, rfl⟩
  · exact ⟨.capture, decode_of_selects_full h rfl, rfl⟩
  · exact ⟨.getFrame (frameIndex w.fieldA w.fieldB), decode_of_spells (OperandLimit.frameIndex_holds.mp hlimit)
      ⟨hop.symm, frameIndex_high .., frameIndex_low ..⟩, rfl⟩
  · exact ⟨.configure, decode_of_selects_full h rfl, rfl⟩
  · exact ⟨.writeRegister w.fieldA w.fieldB, decode_of_spells rfl ⟨hop.symm, rfl, rfl⟩, rfl⟩
  · exact ⟨.start, decode_of_selects_full h rfl, rfl⟩
  · exact ⟨.stop, decode_of_selects_full h rfl, rfl⟩
  · have hA : 0 = w.fieldA := ha.symm.trans (and_ff w.fieldA)
    exact ⟨.txbyte w.fieldB, decode_of_spells rfl ⟨hop.symm, hA, rfl⟩, rfl⟩
  · obtain ⟨pin, hpin⟩ := exists_pin_code (OperandLimit.pinCode_holds.mp hlimit)
    obtain ⟨level, hlevel⟩ := exists_levelCode hb
    exact ⟨.waitw pin level, decode_of_spells rfl ⟨hop.symm, hpin.symm, hlevel.symm⟩, rfl⟩
  · exact ⟨.sample, decode_of_selects_full h rfl, rfl⟩
  · exact ⟨.irqMask, decode_of_selects_full h rfl, rfl⟩
  · exact ⟨.irqRestore, decode_of_selects_full h rfl, rfl⟩
  · exact ⟨.delay, decode_of_selects_full h rfl, rfl⟩

/-- R107: a row selects the encoding of an operation with its opcode, if its mask and its constraint allow the operands. -/
theorem OpRow.selects_encode (hr : r ∈ opTable) (hop : i.opcode = r.pattern.opcode)
    (ha : i.operandA &&& r.mask.fieldA = 0) (hb : i.operandB &&& r.mask.fieldB = 0)
    (hlimit : r.limit.holds (encode i) = true) : r.selects (encode i) = true := by
  refine (OpRow.selects_iff hr).mpr ?_
  simp only [encode, OpWord.opcode_pack, OpWord.fieldA_pack, OpWord.fieldB_pack]
  exact ⟨hop, ha, hb, hlimit⟩

/-- R107: an operation with legal operands is encoded as a word that a row of its mnemonic selects. -/
theorem exists_selects_encode (h : i.wellFormed = true) :
    ∃ r ∈ opTable, r.selects (encode i) = true ∧ r.mnemonic = i.mnemonic := by
  cases i with
  | getFrame index =>
    have hr : (⟨"GET_FRAME", 0xFF0000, 0x030000, .frameIndex⟩ : OpRow) ∈ opTable := by decide
    have hlimit : OperandLimit.frameIndex.holds (encode (.getFrame index)) = true := by
      simpa [OperandLimit.frameIndex_holds, encode, Instr.operandA, Instr.operandB, frameIndex_halves] using h
    exact ⟨_, hr, OpRow.selects_encode hr rfl BitVec.and_zero BitVec.and_zero hlimit, rfl⟩
  | writeRegister =>
    have hr : (⟨"WRITE_REGISTER", 0xFF0000, 0x050000, .free⟩ : OpRow) ∈ opTable := by decide
    exact ⟨_, hr, OpRow.selects_encode hr rfl BitVec.and_zero BitVec.and_zero rfl, rfl⟩
  | txbyte =>
    have hr : (⟨"TXBYTE", 0xFFFF00, 0x120000, .free⟩ : OpRow) ∈ opTable := by decide
    exact ⟨_, hr, OpRow.selects_encode hr rfl BitVec.zero_and BitVec.and_zero rfl, rfl⟩
  | waitw pin level =>
    have hr : (⟨"WAITW", 0xFFFCFE, 0x200000, .pinCode⟩ : OpRow) ∈ opTable := by decide
    exact ⟨_, hr, by cases pin <;> cases level <;> rfl, rfl⟩
  | initialise | capture | configure | start | stop | sample | irqMask | irqRestore | delay => decide

/-- The mnemonic names one row of the table. -/
theorem opTable_eq_of_mnemonic : ∀ r ∈ opTable, ∀ r' ∈ opTable, r.mnemonic = r'.mnemonic → r = r' := by decide

/-! ### The obligations on words -/

/-- Settles O1: the decoder reads the fields that the encoder wrote. -/
theorem decodeOfEncodeIsTheInstruction : Obligations.DecodeOfEncodeIsTheInstruction := fun _ => decode_encode

/-- Settles O2: each row of the decoder reads an operation whose fields are the word's. -/
theorem encodeOfDecodeIsTheWord : Obligations.EncodeOfDecodeIsTheWord :=
  fun _ _ h => ⟨encode_of_decode h, decode_wellFormed h⟩

/-- Settles O3: a decoded word is its operation's encoding, which lies in the row of that mnemonic; the word of a row decodes to
an operation of the row's mnemonic, so that two rows of one word have the same. -/
theorem tableRowsSelectTheDecodedWords : Obligations.TableRowsSelectTheDecodedWords := by
  intro w
  refine ⟨fun r hr r' hr' h h' => ?_, fun i hd => ?_, fun r hr h => decode_of_selects hr h⟩
  · obtain ⟨i, hd, hi⟩ := decode_of_selects hr h
    obtain ⟨j, hd', hj⟩ := decode_of_selects hr' h'
    obtain rfl : i = j := Except.ok.inj (hd.symm.trans hd')
    exact opTable_eq_of_mnemonic r hr r' hr' (hi.symm.trans hj)
  · rw [← encode_of_decode hd]
    exact exists_selects_encode (decode_wellFormed hd)

/-- Settles O4: the decoder is run on each word. -/
theorem wordsOfTheVectorsDecode : Obligations.WordsOfTheVectorsDecode := by
  unfold Obligations.WordsOfTheVectorsDecode
  decide

end Sys2Proof

namespace Sys2Proof.Machine

variable {s t v v' u : State} {i : Instr} {w : OpWord} {m : IrqState} {host : List HostEvent} {platform : List PlatformMove}

/-! ### A refused word -/

/-- R38, R101, R230: a word is not accepted while BUSY = 1, and never where it names no host operation. -/
theorem accepted_eq_none (h : s.busy = true ∨ ∀ i, decode w = .ok i → i.isHost = false) : s.accepted w = none := by
  refine Option.eq_none_iff_forall_ne_some.mpr fun i hi => ?_
  obtain ⟨hb, hhost⟩ := accepted_some hi
  obtain h | h := h
  · simp [hb] at h
  · simp [h i (accepted_decode hi)] at hhost

/-- R230: a word that is not accepted leaves the step to the running unit. -/
theorem wordStep_of_refused (h : s.accepted w = none) : s.wordStep w = s.unitStep := by simp [State.wordStep, h]

theorem step_of_quiet {rest : List HostEvent} (hi : s.env.issue = none) (hh : s.env.host = .quiet :: rest) :
    step s = s.nextMoves.unitStep := by
  simp [step, State.machineStep, hi, hh]

/-- The moves of a step take the host's entry, whatever it is. -/
theorem nextMoves_of_host {e : HostEvent} {rest : List HostEvent} (hh : s.env.host = e :: rest) (e' : HostEvent) :
    { s with env := { s.env with host := e' :: rest } }.nextMoves = s.nextMoves := by
  simp [State.nextMoves, Env.nextMoves, State.platformMask, hh]

/-- Settles O8: a refused word leaves the step to the running unit, as a silent host does; in the idle block none runs. -/
theorem refusedWordChangesNothing : Obligations.RefusedWordChangesNothing := by
  intro s w rest hi hh hrefused
  have hnone : s.nextMoves.accepted w = none := accepted_eq_none (hrefused.imp_left busy_nextMoves.trans)
  have hstep : step s = s.nextMoves.unitStep := (step_of_word hi hh).trans (wordStep_of_refused hnone)
  refine ⟨?_, fun hb => ⟨?_, busy_nextMoves.trans hb⟩⟩
  · rw [hstep, step_of_quiet (s := { s with env := { s.env with host := .quiet :: rest } }) hi rfl, nextMoves_of_host hh]
  · obtain ⟨hf, hc, hw⟩ := busy_eq_false.mp hb
    exact hstep.trans (unitStep_idle hw hc hf)

/-! ### A write does not depend on the schedules -/

/-- `v` with other moves of the host and the platform to come, and another interrupt mask. -/
def State.reschedule (v : State) (m : IrqState) (host : List HostEvent) (platform : List PlatformMove) : State :=
  { v with irqMask := m, env := { v.env with host := host, platform := platform } }

theorem State.stepB3_reschedule : (v.reschedule m host platform).stepB3 = v.stepB3.reschedule m host platform := by
  obtain ⟨h, e⟩ | ⟨h, e⟩ := v.stepB3_cases
  · rw [e]; exact if_pos h
  · rw [e]; exact if_neg h

theorem State.stepA4_reschedule : (v.reschedule m host platform).stepA4 = v.stepA4.reschedule m host platform := by
  obtain ⟨h, e⟩ | ⟨h, e⟩ := v.stepA4_cases
  · rw [e]; exact if_pos h
  · rw [e]; exact if_neg (Bool.eq_false_iff.mp h)

/-- R35: the writer's step is the same whatever the host and the platform are about to do. -/
theorem UnitMove.unitStep_reschedule (h : UnitMove v v') (hw : v.cbw.state ≠ .idle) :
    (v.reschedule m host platform).unitStep = .next (v'.reschedule m host platform) := by
  cases h with
  | s1 h => exact unitStep_s1 h
  | s2 h => exact unitStep_s2 h
  | b1 h => exact unitStep_b1 h
  | b2 h => exact unitStep_b2 h
  | b3 h => exact (unitStep_b3 (s := v.reschedule m host platform) h).trans (congrArg _ State.stepB3_reschedule)
  | a1 h => exact unitStep_a1 h
  | a2 h => exact unitStep_a2 h
  | a3 h => exact unitStep_a3 h
  | a4 h => exact (unitStep_a4 (s := v.reschedule m host platform) h).trans (congrArg _ State.stepA4_reschedule)
  | p1 h => exact unitStep_p1 h
  | p2 h => exact unitStep_p2 h
  | p3 h => exact unitStep_p3 h
  | finish h | fetch h | judge h | settle h | poll h | sample h | complete h | idle h => exact absurd h hw

/-- The moves of a step stay in the schedules and the mask. -/
theorem State.nextMoves_reschedule : (v.reschedule m host platform).nextMoves =
    v.reschedule (v.reschedule m host platform).platformMask host.tail platform.tail := rfl

/-- `s` is undisturbed, and is `v` but for the schedules and the interrupt mask. -/
def State.Follows (s v : State) : Prop :=
  s.undisturbed ∧ ∃ m host platform, s = v.reschedule m host platform

theorem State.Follows.refl (hu : s.undisturbed) : s.Follows s := ⟨hu, _, _, _, rfl⟩

/-- While the writer runs, a step of the machine is the writer's. -/
theorem State.Follows.step (hs : s.Follows v) (hw : v.cbw.state ≠ .idle) (h : UnitMove v v') :
    ∃ t, step s = .next t ∧ t.Follows v' := by
  obtain ⟨hu, m, host, platform, rfl⟩ := hs
  have hstep := step_of_busy hu (busy_eq_true.mpr (.inr (.inr hw)))
  rw [State.nextMoves_reschedule, h.unitStep_reschedule hw] at hstep
  obtain ⟨hi, hh⟩ := hu
  exact ⟨_, hstep, ⟨h.issue.trans hi, fun e he => hh e (List.mem_of_mem_tail he)⟩, _, _, _, rfl⟩

/-! ### What the writer's steps put on the wire -/

/-- A step of the writer as it is seen outside: the primitive that it belongs to, and SCL and SDA_M after it. -/
abbrev WireStep := Instr × Bool × Bool

/-- The writer goes from `v` to `u` in the steps listed. -/
inductive Emits : State → List WireStep → State → Prop
  | nil {v : State} : Emits v [] v
  | cons {v v' u : State} {i : Instr} {pins : Bool × Bool} {ws : List WireStep} (hi : v.cbw.issues = some i)
      (hv : UnitMove v v') (hp : (v'.cbw.scl, v'.cbw.sdaM) = pins) (h : Emits v' ws u) : Emits v ((i, pins) :: ws) u

variable {ws ws' : List WireStep} {pins : Bool × Bool} {n : Nat}

theorem Emits.append (h : Emits v ws v') (h' : Emits v' ws' u) : Emits v (ws ++ ws') u := by
  induction h with
  | nil => exact h'
  | cons hi hv hp _ ih => exact .cons hi hv hp (ih h')

/-- What the writer emits is a run of the machine, whatever the host presents and the platform does. -/
theorem Emits.exists_run (h : Emits v ws u) (hs : s.Follows v) : ∃ t, run ws.length s = .next t ∧ t.Follows u := by
  induction h generalizing s with
  | nil => exact ⟨s, rfl, hs⟩
  | cons hi hv _ _ ih =>
    obtain ⟨t, hstep, ht⟩ := hs.step (CbwRegs.state_ne_idle_of_issues hi) hv
    obtain ⟨t', hrun, ht'⟩ := ih ht
    exact ⟨t', (run_succ_of_next hstep).trans hrun, ht'⟩

/-- Each listed step is one of that run: it belongs to its primitive and leaves its pins. -/
theorem Emits.getElem?_run (h : Emits v ws u) (hs : s.Follows v) (hn : ws[n]? = some (i, pins)) :
    ∃ t t', run n s = .next t ∧ t.cbw.issues = some i ∧
      run (n + 1) s = .next t' ∧ (t'.cbw.scl, t'.cbw.sdaM) = pins := by
  induction h generalizing s n with
  | nil => cases hn
  | cons hi hv hp _ ih =>
    obtain ⟨t, hstep, ht⟩ := hs.step (CbwRegs.state_ne_idle_of_issues hi) hv
    cases n with
    | zero =>
      cases hn
      obtain ⟨-, _, _, _, rfl⟩ := hs
      obtain ⟨-, _, _, _, rfl⟩ := ht
      exact ⟨_, _, rfl, hi, run_succ_of_next hstep, hp⟩
    | succ n =>
      obtain ⟨t', t'', hrun, hi', hrun', hp'⟩ := ih ht hn
      exact ⟨t', t'', (run_succ_of_next hstep).trans hrun, hi', (run_succ_of_next hstep).trans hrun', hp'⟩

/-- The steps of bit `k` of `b` (R152). -/
def bitWire (b : Byte) (k : Nat) : List WireStep :=
  [(.txbyte b, false, b.getLsbD k), (.txbyte b, true, b.getLsbD k), (.txbyte b, false, b.getLsbD k)]

/-- The steps of the bits of `b` from bit `k` down (R152). -/
def bitsWire (b : Byte) : Nat → List WireStep
  | 0 => bitWire b 0
  | k + 1 => bitWire b (k + 1) ++ bitsWire b k

/-- The steps of the acknowledge of `b` (R152). -/
def acknowledgeWire (b : Byte) : List WireStep :=
  [(.txbyte b, false, true), (.txbyte b, true, true), (.txbyte b, true, true), (.txbyte b, false, true)]

/-- The steps of `TXBYTE b` (R152). -/
def byteWire (b : Byte) : List WireStep := (bytePins b).map (Prod.mk (.txbyte b))

/-- The steps of a write of `bytes` that begins with SCL at `scl` (R93, R155). -/
def writeWire (scl : Bool) (bytes : List Byte) : List WireStep :=
  [(.start, scl, false), (.start, false, false)] ++ bytes.flatMap byteWire ++
    [(.stop, false, false), (.stop, true, false), (.stop, true, true)]

/-- R152: eight bits, bit 7 first, then the acknowledge. -/
theorem byteWire_eq (b : Byte) : byteWire b = bitsWire b 7 ++ acknowledgeWire b := rfl

theorem byteWire_primitives (b : Byte) : (byteWire b).map Prod.fst = List.replicate 28 (.txbyte b) := rfl

theorem byteWire_pins (b : Byte) : (byteWire b).map Prod.snd = bytePins b := rfl

theorem writeWire_primitives (scl : Bool) (bytes : List Byte) :
    (writeWire scl bytes).map Prod.fst = writePrimitives bytes := by
  simp only [writeWire, writePrimitives, List.map_append, List.map_flatMap, byteWire_primitives]
  rfl

/-- R93: from the idle bus, with SCL at 1. -/
theorem writeWire_pins (bytes : List Byte) : (writeWire true bytes).map Prod.snd = writePins bytes := by
  simp only [writeWire, writePins, List.map_append, List.map_flatMap, byteWire_pins]
  rfl

/-- R93, R155: what a write emits from `s` says what `s` sends. -/
theorem Emits.sends {bytes : List Byte} (h : Emits s (writeWire s.cbw.scl bytes) u) (hu : s.undisturbed) :
    s.sends bytes := by
  refine ⟨fun n i hn => ?_, fun hscl _ n p hn => ?_⟩
  · rw [← writeWire_primitives s.cbw.scl, List.getElem?_map, Option.map_eq_some_iff] at hn
    obtain ⟨_, hn, rfl⟩ := hn
    obtain ⟨t, -, hrun, hi, -⟩ := h.getElem?_run (.refl hu) hn
    exact ⟨t, hrun, hi⟩
  · rw [hscl] at h
    rw [← writeWire_pins, List.getElem?_map, Option.map_eq_some_iff] at hn
    obtain ⟨_, hn, rfl⟩ := hn
    obtain ⟨-, t, -, -, hrun, hp⟩ := h.getElem?_run (.refl hu) hn
    exact ⟨t, hrun, hp⟩

/-! ### One byte -/

/-- `v` at A1, with the bits of its byte sent. -/
def State.bitsSent (v : State) : State :=
  { v with cbw := { v.cbw with scl := false, sdaM := v.cbw.sh.getLsbD 0, bitcnt := 0, state := .a1 } }

theorem State.stepB3_of_last (h : v.cbw.bitcnt = 0) : v.stepB1.stepB2.stepB3 = v.bitsSent := by
  rw [State.stepB3, if_pos (show v.stepB1.stepB2.cbw.bitcnt = 0 from h)]
  simp [State.stepB1, State.stepB2, State.bitsSent, h]

theorem State.stepB3_of_more (h : v.cbw.bitcnt ≠ 0) : v.stepB1.stepB2.stepB3 = { v with cbw := { v.cbw with
    scl := false, sdaM := v.cbw.sh.getLsbD v.cbw.bitcnt.toNat, bitcnt := v.cbw.bitcnt - 1, state := .b1 } } :=
  if_neg h

/-- R146, R147: one bit, and what B3 makes of it. -/
theorem Emits.bit {k : Nat} (hst : v.cbw.state = .b1) (hscl : v.cbw.scl = false) (hk : v.cbw.bitcnt.toNat = k) :
    Emits v (bitWire v.cbw.sh k) v.stepB1.stepB2.stepB3 := by
  have hpins : (v.stepB1.stepB2.stepB3.cbw.scl, v.stepB1.stepB2.stepB3.cbw.sdaM) = (false, v.cbw.sh.getLsbD k) := by
    obtain ⟨-, e⟩ | ⟨-, e⟩ := v.stepB1.stepB2.stepB3_cases <;> rw [e, ← hk] <;> rfl
  refine .cons (by simp [CbwRegs.issues, hst]) (.b1 hst) ?_ (.cons rfl (.b2 rfl) ?_ (.cons rfl (.b3 rfl) hpins .nil))
  · rw [← hscl, ← hk]; rfl
  · rw [← hk]; rfl

/-- R146, R147: the bits from `bitcnt` down. -/
theorem Emits.bits {k : Nat} (hst : v.cbw.state = .b1) (hscl : v.cbw.scl = false) (hk : v.cbw.bitcnt.toNat = k) :
    Emits v (bitsWire v.cbw.sh k) v.bitsSent := by
  induction k generalizing v with
  | zero =>
    have h := Emits.bit hst hscl hk
    rwa [State.stepB3_of_last (BitVec.eq_of_toNat_eq hk)] at h
  | succ k ih =>
    have hne : v.cbw.bitcnt ≠ 0 := fun h0 => by simp [h0] at hk
    have hpred : (v.cbw.bitcnt - 1).toNat = k := by bv_omega
    have h := Emits.bit hst hscl hk
    rw [State.stepB3_of_more hne] at h
    exact h.append (ih rfl rfl hpred)

/-- `v` at A4, with its byte sent and the draw of the acknowledge taken (R148). -/
def State.acknowledged (v : State) : State :=
  { v with
    cbw := { v.cbw with
      scl := true, sdaM := true, bitcnt := 0, ack := !v.env.sdaAt 0, ok := v.cbw.ok && !v.env.sdaAt 0, state := .a4 }
    env := v.env.nextDraw }

/-- R148, R149: the ninth pulse. -/
theorem Emits.acknowledge (v : State) :
    Emits v.bitsSent (acknowledgeWire v.cbw.sh) v.acknowledged.stepA4 := by
  have hpins : (v.acknowledged.stepA4.cbw.scl, v.acknowledged.stepA4.cbw.sdaM) = (false, true) := by
    obtain ⟨-, e⟩ | ⟨-, e⟩ := v.acknowledged.stepA4_cases <;> rw [e] <;> rfl
  exact .cons rfl (.a1 rfl) rfl (.cons rfl (.a2 rfl) rfl (.cons rfl (.a3 rfl) rfl (.cons rfl (.a4 rfl) hpins .nil)))

/-- R152: a byte from its first step to what A4 makes of it. -/
theorem Emits.byte (hst : v.cbw.state = .b1) (hscl : v.cbw.scl = false) (hbit : v.cbw.bitcnt = 7) :
    Emits v (byteWire v.cbw.sh) v.acknowledged.stepA4 := by
  rw [byteWire_eq]
  exact (Emits.bits hst hscl (congrArg BitVec.toNat hbit)).append (.acknowledge v)

/-! ### A whole write -/

/-- The inputs after `d` acknowledge draws. -/
def Env.drawn (e : Env) (d : Nat) : Env := { e with acks := e.acks.drop d, draws := e.draws + d }

@[simp] theorem Env.nextDraw_drawn (e : Env) (d : Nat) : (e.drawn d).nextDraw = e.drawn (d + 1) := by
  simp [Env.nextDraw, Env.drawn, Nat.add_assoc]

@[simp] theorem Env.sdaAt_drawn (e : Env) (d k : Nat) : (e.drawn d).sdaAt k = e.sdaAt (k + d) := by
  simp [Env.sdaAt, Env.drawn, Nat.add_comm, Nat.add_left_comm]

/-- The write that starts in `s`, about to send byte `j`. -/
def State.atByte (s : State) (j : Nat) (ok ack sdaM : Bool) : State :=
  { s with
    cbw := { s.cbw with
      scl := false, sdaM := sdaM, bytesel := BitVec.ofNat 2 j, sh := s.busByte (BitVec.ofNat 2 j), bitcnt := 7,
      ack := ack, ok := ok, state := .b1 }
    env := s.env.drawn j }

/-- The write that starts in `s`, with the draw of byte `j` taken. -/
def State.afterByte (s : State) (j : Nat) (ok ack : Bool) : State :=
  { s with
    cbw := { s.cbw with
      scl := true, sdaM := true, bytesel := BitVec.ofNat 2 j, sh := s.busByte (BitVec.ofNat 2 j), bitcnt := 0,
      ack := ack, ok := ok, state := .a4 }
    env := s.env.drawn (j + 1) }

/-- The write that starts in `s`, at P1 after byte `j`. -/
def State.atStop (s : State) (j : Nat) (ok ack : Bool) : State :=
  { s.afterByte j ok ack with cbw := { (s.afterByte j ok ack).cbw with scl := false, state := .p1 } }

variable {j : Nat} {ok ok' ack sdaM : Bool}

theorem State.atByte_acknowledged : (s.atByte j ok ack sdaM).acknowledged =
    s.afterByte j (ok && !s.env.sdaAt j) (!s.env.sdaAt j) := by
  simp [State.acknowledged, State.atByte, State.afterByte]

/-- R149: the write ends after byte 2, or after a byte that is not acknowledged if SCCB_ABORT_ON_NACK is true. -/
def State.lastAfter (s : State) (j : Nat) (ok : Bool) : Bool :=
  decide (BitVec.ofNat 2 j = 2) || (s.params.abortOnNack && !ok)

theorem State.lastAfter_of_ne_two (hj : BitVec.ofNat 2 j ≠ 2) : s.lastAfter j ok = (s.params.abortOnNack && !ok) := by
  rw [State.lastAfter, decide_eq_false hj, Bool.false_or]

theorem State.afterByte_lastByte : (s.afterByte j ok ack).lastByte = s.lastAfter j ok := rfl

theorem State.afterByte_stepA4_last (h : s.lastAfter j ok = true) :
    (s.afterByte j ok ack).stepA4 = s.atStop j ok ack := if_pos h

theorem State.afterByte_stepA4_next (h : s.lastAfter j ok = false) :
    (s.afterByte j ok ack).stepA4 = s.atByte (j + 1) ok ack true := by
  rw [State.stepA4, State.afterByte_lastByte, if_neg (Bool.eq_false_iff.mp h), State.atByte, BitVec.ofNat_add]
  rfl

/-- R149, R152: byte `j`, after which the write goes to its stop condition. -/
theorem Emits.lastByte (hok : (ok && !s.env.sdaAt j) = ok') (h : s.lastAfter j ok' = true) :
    Emits (s.atByte j ok ack sdaM) (byteWire (s.busByte (BitVec.ofNat 2 j))) (s.atStop j ok' (!s.env.sdaAt j)) := by
  rw [← State.afterByte_stepA4_last h, ← hok, ← State.atByte_acknowledged]
  exact .byte rfl rfl rfl

/-- R149, R152: byte `j`, after which the next one is sent. -/
theorem Emits.nextByte (hok : (ok && !s.env.sdaAt j) = ok') (h : s.lastAfter j ok' = false) :
    Emits (s.atByte j ok ack sdaM) (byteWire (s.busByte (BitVec.ofNat 2 j)))
      (s.atByte (j + 1) ok' (!s.env.sdaAt j) true) := by
  rw [← State.afterByte_stepA4_next h, ← hok, ← State.atByte_acknowledged]
  exact .byte rfl rfl rfl

/-- The write that starts in `s`, when it has ended after byte `j`. -/
def State.writeEnd (s : State) (j : Nat) (ok ack : Bool) : State := (s.atStop j ok ack).stepP1.stepP2.stepP3

/-- R151, R153: between START and STOP a write sends its bytes. -/
theorem Emits.write {address value : Byte} {bytes : List Byte}
    (h : Emits ((s.startWrite address value).atByte 0 true s.cbw.ack false) (bytes.flatMap byteWire)
      ((s.startWrite address value).atStop j ok ack)) :
    Emits (s.startWrite address value) (writeWire s.cbw.scl bytes) ((s.startWrite address value).writeEnd j ok ack) :=
  have hstart : Emits (s.startWrite address value) [(.start, s.cbw.scl, false), (.start, false, false)]
      ((s.startWrite address value).atByte 0 true s.cbw.ack false) :=
    .cons rfl (.s1 rfl) rfl (.cons rfl (.s2 rfl) rfl .nil)
  (hstart.append h).append (.cons rfl (.p1 rfl) rfl (.cons rfl (.p2 rfl) rfl (.cons rfl (.p3 rfl) rfl .nil)))

/-- `t` is where a write that started in `s` has ended on the idle bus, with the result `ok` and after `d` draws. -/
structure State.WriteEnds (s : State) (ok : Bool) (d : Nat) (t : State) : Prop where
  idle : t.cbw.state = .idle
  scl : t.cbw.scl = true
  sdaM : t.cbw.sdaM = true
  wrOk : t.flags.wrOk = ok
  draws : ∀ k, t.env.sdaAt k = s.env.sdaAt (k + d)
  fce : t.fce = s.fce
  cfg : t.cfg = s.cfg
  fb : t.fb = s.fb
  params : t.params = s.params

/-- A write whose steps are those of `bytes` sends them, takes as many steps, and ends with the result of its last byte. -/
theorem Emits.sends_and_ends {bytes : List Byte} (h : Emits s (writeWire s.cbw.scl bytes) (s.writeEnd j ok ack))
    (hu : s.undisturbed) (hn : (writeWire s.cbw.scl bytes).length = n) :
    s.sends bytes ∧ ∃ t, run n s = .next t ∧ s.WriteEnds ok (j + 1) t := by
  obtain ⟨_, hrun, -, m, host, platform, rfl⟩ := h.exists_run (.refl hu)
  exact ⟨h.sends hu, (s.writeEnd j ok ack).reschedule m host platform, hn ▸ hrun, rfl, rfl, rfl, rfl,
    s.env.sdaAt_drawn (j + 1), rfl, rfl, rfl, rfl⟩

variable (address value : Byte)

/-- R149: a write that gives up after its first byte. -/
theorem Emits.writeOfOne (hok : (!s.env.sdaAt 0) = ok) (h : s.lastAfter 0 ok = true) :
    Emits (s.startWrite address value) (writeWire s.cbw.scl [s.params.devAddr])
      ((s.startWrite address value).writeEnd 0 ok (!s.env.sdaAt 0)) :=
  .write ((Emits.lastByte (s := s.startWrite address value) (j := 0) (ok := true) hok h).append .nil)

/-- R149: a write that gives up after its second byte. -/
theorem Emits.writeOfTwo (hok : (!s.env.sdaAt 0) = ok) (h : s.lastAfter 0 ok = false)
    (hok' : (ok && !s.env.sdaAt 1) = ok') (h' : s.lastAfter 1 ok' = true) :
    Emits (s.startWrite address value) (writeWire s.cbw.scl [s.params.devAddr, address])
      ((s.startWrite address value).writeEnd 1 ok' (!s.env.sdaAt 1)) :=
  .write ((Emits.nextByte (s := s.startWrite address value) (j := 0) (ok := true) hok h).append
    ((Emits.lastByte (s := s.startWrite address value) (j := 1) hok' h').append .nil))

/-- R149: a write of all three bytes. -/
theorem Emits.writeOfThree (hok : (!s.env.sdaAt 0) = ok) (h : s.lastAfter 0 ok = false)
    (hok' : (ok && !s.env.sdaAt 1) = ok') (h' : s.lastAfter 1 ok' = false) :
    Emits (s.startWrite address value) (writeWire s.cbw.scl [s.params.devAddr, address, value])
      ((s.startWrite address value).writeEnd 2 (ok' && !s.env.sdaAt 2) (!s.env.sdaAt 2)) :=
  .write ((Emits.nextByte (s := s.startWrite address value) (j := 0) (ok := true) hok h).append
    ((Emits.nextByte (s := s.startWrite address value) (j := 1) hok' h').append
      ((Emits.lastByte (s := s.startWrite address value) (j := 2) rfl rfl).append .nil)))

/-- While the listed steps last, the writer runs (R30). -/
theorem State.sends.run_not_idle {bytes : List Byte} (h : s.sends bytes) (hn : n < (writePrimitives bytes).length) :
    ∃ t, run n s = .next t ∧ t.cbw.state ≠ .idle := by
  obtain ⟨t, hrun, hi⟩ := h.1 n _ (List.getElem?_eq_getElem hn)
  exact ⟨t, hrun, CbwRegs.state_ne_idle_of_issues hi⟩

/-- Settles O26: without the abort no byte is the last but byte 2. -/
theorem writeTakes89Steps : Obligations.WriteTakes89Steps := by
  intro s address value hu habort
  have hgo {j : Nat} {ok : Bool} (hj : BitVec.ofNat 2 j ≠ 2) : s.lastAfter j ok = false := by
    rw [State.lastAfter_of_ne_two hj, habort, Bool.false_and]
  have hwrite := Emits.writeOfThree address value rfl (hgo (by decide)) rfl (hgo (by decide))
  obtain ⟨hsends, t, hrun, ht⟩ := hwrite.sends_and_ends hu rfl
  refine ⟨fun n hn => hsends.run_not_idle hn, hsends, t, hrun, ht.idle, ht.scl, ht.sdaM, ?_, ht.draws, ht.fce, ht.cfg,
    ht.fb, ht.params⟩
  simp [ht.wrOk, and_assoc]

/-- Settles O27: with the abort the first byte that is not acknowledged is the last. -/
theorem writeIsCutShortByAMissingAcknowledge : Obligations.WriteIsCutShortByAMissingAcknowledge := by
  intro s address value hu habort
  have hgo {j : Nat} (hj : BitVec.ofNat 2 j ≠ 2) : s.lastAfter j true = false := by
    rw [State.lastAfter_of_ne_two hj, Bool.not_true, Bool.and_false]
  have hstop {j : Nat} : s.lastAfter j false = true := by simp [State.lastAfter, habort]
  refine ⟨fun h0 => ?_, fun h0 h1 => ?_, fun h0 h1 => ?_⟩
  · have hwrite := Emits.writeOfOne address value (by rw [h0]; rfl) hstop
    obtain ⟨hsends, t, hrun, ht⟩ := hwrite.sends_and_ends hu rfl
    exact ⟨hsends, t, hrun, ht.idle, ht.wrOk, ht.scl, ht.sdaM, ht.draws⟩
  · have hwrite := Emits.writeOfTwo address value (by rw [h0]; rfl) (hgo (by decide)) (by rw [h1]; rfl) hstop
    obtain ⟨hsends, t, hrun, ht⟩ := hwrite.sends_and_ends hu rfl
    exact ⟨hsends, t, hrun, ht.idle, ht.wrOk, ht.scl, ht.sdaM, ht.draws⟩
  · have hwrite := Emits.writeOfThree address value (by rw [h0]; rfl) (hgo (by decide)) (by rw [h1]; rfl) (hgo (by decide))
    obtain ⟨hsends, t, hrun, ht⟩ := hwrite.sends_and_ends hu rfl
    exact ⟨hsends, t, hrun, ht.idle, ht.wrOk, ht.scl, ht.sdaM, ht.draws⟩

/-! ### One pixel -/

/-- Settles O47: the pixel's trace takes the capture over its four edges, with both bytes written. -/
theorem pixelStoresItsTwoBytes : Obligations.PixelStoresItsTwoBytes := by
  intro s b0 b1 xs rest hu hw hc hf he hb hpins htrace
  have hs : s.Capturing ⟨s.fce, s.fb⟩ (xs ++ rest) := ⟨hu, hw, hc, rfl, rfl, hpins⟩
  obtain ⟨t, hrun, ht⟩ := Consumes.pixel (v := ⟨s.fce, s.fb⟩) hf he hb htrace s rest hs
  have hread (a : Nat) : t.readFrame a =
      ((s.writeFrame s.fce.byteIndex.toNat b0).writeFrame (s.fce.byteIndex.toNat + 1) b1).readFrame a :=
    congrArg (fun fb => (Memory.read? fb a).getD (Config.freeByte a)) ht.fb
  refine ⟨t, hrun, ht.pins, ?_, ?_, ?_, fun a h0 h1 => ?_, ht.fce⟩
  · rw [ht.fce, FceRegs.advance_byteIndex]
  · rw [hread, State.readFrame_writeFrame_other _ _ (Nat.ne_of_lt (Nat.lt_succ_self _)), State.readFrame_writeFrame_same]
  · rw [hread, State.readFrame_writeFrame_same]
  · rw [hread, State.readFrame_writeFrame_other _ _ h1, State.readFrame_writeFrame_other _ _ h0]

end Sys2Proof.Machine
end

section
/-! PROOFS of the statements about 41_sensor_configurator.md: the configurator's steps one by one, a settle delay, and a
CONFIGURE from its acceptance to `Ok` or to the first failing entry. `State.Configures` says where a CONFIGURE stands; an
acknowledged entry leads from FETCH at one entry to FETCH at the next, so that the entries are an induction on their number. -/

namespace Sys2Proof.Machine

variable {s t p : State} {k d j n m : Nat} {ok : Bool}

/-! ### The configurator's steps -/

/-- R35: while the writer is IDLE and the configurator is not, a step is the configurator's. -/
theorem step_of_configuring (hu : s.undisturbed) (hc : s.cfg.state ≠ .idle) : step s = s.nextMoves.unitStep :=
  step_of_busy hu (busy_eq_true.mpr (.inr (.inl hc)))

/-- R121: FETCH at the end of the table. -/
theorem step_fetch_end (hu : s.undisturbed) (hw : s.cbw.state = .idle) (hc : s.cfg.state = .fetch)
    (hidx : s.cfg.idx.toNat = s.params.tableLen) :
    step s = .next { s.nextMoves with cfg := { s.cfg with state := .idle }, flags := { s.flags with cfgOk := true } } :=
  (step_of_configuring hu (by simp [hc])).trans ((unitStep_fetch (s := s.nextMoves) hw hc).trans (if_pos hidx))

/-- R121: an entry is written as WRITE_REGISTER would write it. -/
theorem State.fetchEntry_of_entry {e : RegEntry} (hidx : s.cfg.idx.toNat ≠ s.params.tableLen)
    (he : s.tableEntry? s.cfg.idx.toNat = some e) :
    s.fetchEntry = .next ({ s with cfg := { s.cfg with state := .write } }.startWrite e.address e.value) := by
  rw [State.fetchEntry, if_neg hidx, he]
  rfl

/-- R121: FETCH starts the write of an entry. -/
theorem step_fetch_entry {e : RegEntry} (hu : s.undisturbed) (hw : s.cbw.state = .idle) (hc : s.cfg.state = .fetch)
    (hidx : s.cfg.idx.toNat ≠ s.params.tableLen) (he : s.tableEntry? s.cfg.idx.toNat = some e) :
    step s = .next ({ s.nextMoves with cfg := { s.cfg with state := .write } }.startWrite e.address e.value) :=
  (step_of_configuring hu (by simp [hc])).trans
    ((unitStep_fetch (s := s.nextMoves) hw hc).trans (State.fetchEntry_of_entry (s := s.nextMoves) hidx he))

/-- R123: WRITE, when the writer is IDLE again. -/
theorem step_write (hu : s.undisturbed) (hw : s.cbw.state = .idle) (hc : s.cfg.state = .write) :
    step s = .next s.nextMoves.judgeWrite :=
  (step_of_configuring hu (by simp [hc])).trans (unitStep_write (s := s.nextMoves) hw hc)

/-- R123: a successful write is followed by the settle delay. -/
theorem State.judgeWrite_of_ok (h : s.flags.wrOk = true) :
    s.judgeWrite = { s with cfg := { s.cfg with settleCnt := s.params.settleTicks, state := .settle } } := if_pos h

/-- R123, R259: a failed write ends the CONFIGURE. -/
theorem State.judgeWrite_of_failed (h : s.flags.wrOk = false) : s.judgeWrite = s.raiseBusFailure :=
  if_neg (Bool.eq_false_iff.mp h)

/-- R124: a settle step. -/
theorem step_settle (hu : s.undisturbed) (hw : s.cbw.state = .idle) (hc : s.cfg.state = .settle) :
    step s = .next s.nextMoves.delayStep :=
  (step_of_configuring hu (by simp [hc])).trans (unitStep_settle (s := s.nextMoves) hw hc)

/-- R124: the last step of a delay. -/
theorem State.delayStep_of_one (h : s.cfg.settleCnt = 1) :
    s.delayStep = { s with cfg := { s.cfg with settleCnt := 0, idx := s.cfg.idx + 1, state := .fetch } } := by
  obtain ⟨-, e⟩ | ⟨hlt, -⟩ := s.delayStep_cases
  · exact e
  · omega

/-- R124: the other steps of a delay. -/
theorem State.delayStep_of_more (h : 1 < s.cfg.settleCnt) :
    s.delayStep = { s with cfg := { s.cfg with settleCnt := s.cfg.settleCnt - 1 } } := by
  obtain ⟨hle, -⟩ | ⟨-, e⟩ := s.delayStep_cases
  · omega
  · exact e

/-- R124: inside a settle delay DELAY is the delay's next step. -/
theorem execDelay_of_settle (h : s.cfg.state = .settle) : exec .delay s = .next s.delayStep :=
  congrArg (fun u : State => Host.Outcome.next u.delayStep) (if_pos h)

/-- Settles O13: with BUSY = 0 both are `startConfigure`. -/
theorem configureAndInitializeStart : Obligations.ConfigureAndInitializeStart := by
  rintro s i (rfl | rfl) hb <;> exact if_neg (Bool.eq_false_iff.mp hb)

/-- Settles O39: the two readings of an entry name the same address and value. -/
theorem fetchStartsTheWriteOfTheEntry : Obligations.FetchStartsTheWriteOfTheEntry := by
  intro s hu hw hc
  refine ⟨step_fetch_end hu hw hc, fun e hidx he => ?_, fun w hidx hword => ?_⟩
  · exact step_fetch_entry hu hw hc hidx ((s.tableEntry?_eq _).trans he)
  · have he : s.tableEntry? s.cfg.idx.toNat = some (RegEntry.ofWord w) := by rw [State.tableEntry?, hword, Option.map_some]
    exact step_fetch_entry hu hw hc hidx he

/-- Settles O40: the step is `judgeWrite` after the moves of the environment. -/
theorem writeResultIsJudged : Obligations.WriteResultIsJudged := by
  intro s hu hw hc
  have hstep := step_write hu hw hc
  refine ⟨fun hok => ?_, fun hfail => ?_⟩
  · rw [hstep, State.judgeWrite_of_ok (s := s.nextMoves) hok]
    rfl
  · rw [State.judgeWrite_of_failed (s := s.nextMoves) hfail] at hstep
    exact ⟨_, hstep, rfl, rfl⟩

/-- Settles O41: inside the delay DELAY is its next step, the last one at count 1. -/
theorem delayCountsDown : Obligations.DelayCountsDown := fun _ hc _ =>
  ⟨fun h => (execDelay_of_settle hc).trans (congrArg _ (State.delayStep_of_one h)),
    fun h => (execDelay_of_settle hc).trans (congrArg _ (State.delayStep_of_more h))⟩

/-! ### The settle delay -/

/-- A run takes one more step. -/
theorem run_succ_of_run (h : run n s = .next t) (h' : step t = .next p) : run (n + 1) s = .next p :=
  (run_add h).trans (run_succ_of_next h')

/-- R124: before its count is over a delay has only counted down. -/
theorem run_settle (hu : s.undisturbed) (hw : s.cbw.state = .idle) (hc : s.cfg.state = .settle) (hn : n < s.cfg.settleCnt) :
    ∃ t, run n s = .next t ∧ t.Follows { s with cfg := { s.cfg with settleCnt := s.cfg.settleCnt - n } } := by
  induction n with
  | zero => exact ⟨s, rfl, .refl hu⟩
  | succ n ih =>
    obtain ⟨t, hrun, hut, _, _, _, rfl⟩ := ih (by omega)
    have hstep := step_settle hut hw hc
    rw [State.delayStep_of_more (show 1 < s.cfg.settleCnt - n by omega)] at hstep
    exact ⟨_, run_succ_of_run hrun hstep, undisturbed_nextMoves hut, _, _, _, rfl⟩

/-- R124: after its count of steps a delay has ended, and nothing but the configurator has changed. -/
theorem run_settle_end (hu : s.undisturbed) (hw : s.cbw.state = .idle) (hc : s.cfg.state = .settle)
    (hpos : 1 ≤ s.cfg.settleCnt) : ∃ t, run s.cfg.settleCnt s = .next t ∧
      t.Follows { s with cfg := { s.cfg with settleCnt := 0, idx := s.cfg.idx + 1, state := .fetch } } := by
  obtain ⟨t, hrun, hut, _, _, _, rfl⟩ := run_settle (n := s.cfg.settleCnt - 1) hu hw hc (by omega)
  have hstep := step_settle hut hw hc
  rw [State.delayStep_of_one (show s.cfg.settleCnt - (s.cfg.settleCnt - 1) = 1 by omega)] at hstep
  have hlast := run_succ_of_run hrun hstep
  rw [Nat.sub_add_cancel hpos] at hlast
  exact ⟨_, hlast, undisturbed_nextMoves hut, _, _, _, rfl⟩

/-- Settles O42: by induction the delay only counts down until its last step. -/
theorem settleDelayLastsItsCount : Obligations.SettleDelayLastsItsCount := by
  intro s hu hw hc hpos
  refine ⟨fun n hn => ?_, ?_⟩
  · obtain ⟨_, hrun, -, _, _, _, rfl⟩ := run_settle hu hw hc hn
    exact ⟨_, hrun, hc, rfl⟩
  · obtain ⟨_, hrun, -, _, _, _, rfl⟩ := run_settle_end hu hw hc hpos
    exact ⟨_, hrun, rfl, rfl, rfl, rfl, rfl, rfl, rfl⟩

/-! ### The writes of a CONFIGURE -/

/-- A write that starts in `p` ends after byte `j` with the result `ok`, in `n` steps, whatever its address and value. -/
def State.Writes (p : State) (j n : Nat) (ok : Bool) : Prop :=
  ∀ address value, ∃ bytes ack, (writeWire p.cbw.scl bytes).length = n ∧
    Emits (p.startWrite address value) (writeWire p.cbw.scl bytes) ((p.startWrite address value).writeEnd j ok ack)

theorem State.lastAfter_of_ok (hj : BitVec.ofNat 2 j ≠ 2) : p.lastAfter j true = false := by
  rw [State.lastAfter_of_ne_two hj, Bool.not_true, Bool.and_false]

theorem State.lastAfter_of_no_abort (habort : p.params.abortOnNack = false) (hj : BitVec.ofNat 2 j ≠ 2) :
    p.lastAfter j ok = false := by
  rw [State.lastAfter_of_ne_two hj, habort, Bool.false_and]

theorem State.lastAfter_of_nack (habort : p.params.abortOnNack = true) : p.lastAfter j false = true := by
  rw [State.lastAfter, habort, Bool.not_false, Bool.and_self, Bool.or_true]

/-- R154: without the abort a write sends its three bytes, whatever the acknowledges. -/
theorem State.writes_of_no_abort (habort : p.params.abortOnNack = false) :
    p.Writes 2 89 (!p.env.sdaAt 0 && !p.env.sdaAt 1 && !p.env.sdaAt 2) := fun address value =>
  ⟨_, _, rfl, .writeOfThree address value rfl (p.lastAfter_of_no_abort habort (by decide)) rfl
    (p.lastAfter_of_no_abort habort (by decide))⟩

/-- R149, R154: with the first two bytes acknowledged a write sends its third. -/
theorem State.writes_of_acks (h0 : p.env.sdaAt 0 = false) (h1 : p.env.sdaAt 1 = false) :
    p.Writes 2 89 (!p.env.sdaAt 2) := fun address value =>
  ⟨_, _, rfl, .writeOfThree address value (ok := true) (ok' := true) (by rw [h0]; rfl) (p.lastAfter_of_ok (by decide))
    (by rw [h1]; rfl) (p.lastAfter_of_ok (by decide))⟩

/-- R149, R154: with the abort, the first byte not acknowledged. -/
theorem State.writes_of_first_nack (habort : p.params.abortOnNack = true) (h0 : p.env.sdaAt 0 = true) :
    p.Writes 0 33 false := fun address value =>
  ⟨_, _, rfl, .writeOfOne address value (by rw [h0]; rfl) (p.lastAfter_of_nack habort)⟩

/-- R149, R154: with the abort, the second byte not acknowledged. -/
theorem State.writes_of_second_nack (habort : p.params.abortOnNack = true) (h0 : p.env.sdaAt 0 = false)
    (h1 : p.env.sdaAt 1 = true) : p.Writes 1 61 false := fun address value =>
  ⟨_, _, rfl, .writeOfTwo address value (ok := true) (by rw [h0]; rfl) (p.lastAfter_of_ok (by decide)) (by rw [h1]; rfl)
    (p.lastAfter_of_nack habort)⟩

/-! ### Where a CONFIGURE stands -/

/-- A CONFIGURE begun in `s` stands in `t`: undisturbed, in the state `c` at entry `k`, with the writer IDLE and `d` draws
taken. A write leaves the bus idle; before the first one it is as it was. -/
structure State.Configures (s : State) (c : CfgState) (k d : Nat) (t : State) : Prop where
  undisturbed : t.undisturbed
  writer : t.cbw.state = .idle
  pins : s.cbw.pinsInv ∨ 0 < d → t.cbw.pinsInv
  state : t.cfg.state = c
  idx : t.cfg.idx = BitVec.ofNat 16 k
  cfgOk : t.flags.cfgOk = false
  cfgErr : t.flags.cfgErr = false
  draws : ∀ i, t.env.sdaAt i = s.env.sdaAt (d + i)
  fb : t.fb = s.fb
  fce : t.fce = s.fce
  params : t.params = s.params

/-- R120: the acceptance. -/
theorem State.Configures.start (hu : s.undisturbed) (hb : s.busy = false) : s.Configures .fetch 0 0 s.startConfigure where
  undisturbed := hu
  writer := (busy_eq_false.mp hb).2.2
  pins h := h.resolve_right (Nat.lt_irrefl 0)
  state := rfl
  idx := rfl
  cfgOk := rfl
  cfgErr := rfl
  draws i := by rw [Nat.zero_add]; rfl
  fb := rfl
  fce := rfl
  params := rfl

/-- The host's and the platform's moves leave a CONFIGURE where it stands. -/
theorem State.Configures.nextMoves {c : CfgState} (ht : s.Configures c k d t) : s.Configures c k d t.nextMoves :=
  { ht with undisturbed := undisturbed_nextMoves ht.undisturbed }

/-- R33: `idx` does not wrap within the table. -/
theorem State.Configures.idx_toNat {c : CfgState} (ht : s.Configures c k d t) (hwf : s.params.wf)
    (hk : k ≤ s.params.tableLen) : t.cfg.idx.toNat = k := by
  obtain ⟨hlen, -⟩ := hwf
  rw [ht.idx, BitVec.toNat_ofNat, Nat.mod_eq_of_lt (by omega)]

/-- R121: FETCH of an entry starts its write. -/
theorem State.Configures.fetch (ht : s.Configures .fetch k d t) (hwf : s.params.wf) (hk : k < s.params.tableLen) :
    ∃ p address value, step t = .next (p.startWrite address value) ∧ s.Configures .write k d p := by
  have hidx := ht.idx_toNat hwf hk.le
  have hentry : t.tableEntry? t.cfg.idx.toNat = some (s.params.table[k]'hk) := by
    rw [State.tableEntry?_eq, hidx, ht.params, List.getElem?_eq_getElem hk]
  have hne : t.cfg.idx.toNat ≠ t.params.tableLen := by rw [hidx, ht.params]; exact hk.ne
  exact ⟨_, _, _, step_fetch_entry ht.undisturbed ht.writer ht.state hne hentry, { ht.nextMoves with state := rfl }⟩

/-- R121, R122: an entry from its FETCH to the end of its write. -/
theorem State.Configures.write (ht : s.Configures .fetch k d t) (hwf : s.params.wf) (hk : k < s.params.tableLen)
    (hwrites : ∀ p, s.Configures .write k d p → p.Writes j n ok) :
    ∃ u, run (n + 1) t = .next u ∧ s.Configures .write k (d + (j + 1)) u ∧ u.flags.wrOk = ok := by
  obtain ⟨p, address, value, hstep, hp⟩ := ht.fetch hwf hk
  obtain ⟨bytes, ack, rfl, hemits⟩ := hwrites p hp address value
  obtain ⟨_, hrun, hu, _, _, _, rfl⟩ := hemits.exists_run (.refl hp.undisturbed)
  refine ⟨_, (run_succ_of_next hstep).trans hrun, { hp with
    undisturbed := hu, writer := rfl, pins := fun _ => ⟨rfl, rfl⟩, draws := fun i => ?_ }, rfl⟩
  calc (p.env.drawn (j + 1)).sdaAt i = s.env.sdaAt (d + (i + (j + 1))) := by rw [Env.sdaAt_drawn, hp.draws]
    _ = s.env.sdaAt (d + (j + 1) + i) := congrArg _ (by omega)

/-- R123: after a successful write the settle delay is loaded. -/
theorem State.Configures.judge (ht : s.Configures .write k d t) (hok : t.flags.wrOk = true) :
    ∃ u, step t = .next u ∧ s.Configures .settle k d u ∧ u.cfg.settleCnt = s.params.settleTicks := by
  have hstep := step_write ht.undisturbed ht.writer ht.state
  rw [State.judgeWrite_of_ok (s := t.nextMoves) hok] at hstep
  exact ⟨_, hstep, { ht.nextMoves with state := rfl }, congrArg Params.settleTicks ht.params⟩

/-- R124: the delay leads to the FETCH of the next entry. -/
theorem State.Configures.settle (ht : s.Configures .settle k d t) (hpos : 1 ≤ t.cfg.settleCnt) :
    ∃ u, run t.cfg.settleCnt t = .next u ∧ s.Configures .fetch (k + 1) d u := by
  obtain ⟨_, hrun, hu, _, _, _, rfl⟩ := run_settle_end ht.undisturbed ht.writer ht.state hpos
  have hidx : t.cfg.idx + 1 = BitVec.ofNat 16 (k + 1) := by rw [ht.idx, BitVec.ofNat_add]; rfl
  exact ⟨_, hrun, { ht with undisturbed := hu, state := rfl, idx := hidx }⟩

/-- R304: an acknowledged entry takes 91 + SETTLE_TICKS steps and three draws. -/
theorem State.Configures.acknowledgedEntry (ht : s.Configures .fetch k d t) (hwf : s.params.wf)
    (hk : k < s.params.tableLen) (hacks : ∀ i < 3, s.env.sdaAt (d + i) = false) :
    ∃ u, run (91 + s.params.settleTicks) t = .next u ∧ s.Configures .fetch (k + 1) (d + 3) u := by
  have hwrites : ∀ p, s.Configures .write k d p → p.Writes 2 89 true := fun p hp => by
    have hack : ∀ i < 3, p.env.sdaAt i = false := fun i hi => (hp.draws i).trans (hacks i hi)
    simpa only [hack 2 (by omega), Bool.not_false] using p.writes_of_acks (hack 0 (by omega)) (hack 1 (by omega))
  obtain ⟨u, hwrite, hu, hok⟩ := ht.write hwf hk hwrites
  obtain ⟨v, hjudge, hv, hcount⟩ := hu.judge hok
  obtain ⟨w, hsettle, hw⟩ := hv.settle (hcount ▸ hwf.2)
  rw [hcount] at hsettle
  exact ⟨w, (run_add (run_succ_of_run hwrite hjudge)).trans hsettle, hw⟩

/-- R304: while every byte is acknowledged, a CONFIGURE reaches the FETCH of each entry, and of the table's end, on time. -/
theorem exists_run_configures (hu : s.undisturbed) (hb : s.busy = false) (hwf : s.params.wf) (hk : k ≤ s.params.tableLen)
    (hacks : ∀ i < 3 * k, s.env.sdaAt i = false) :
    ∃ t, run (k * (91 + s.params.settleTicks)) s.startConfigure = .next t ∧ s.Configures .fetch k (3 * k) t := by
  induction k with
  | zero => exact ⟨_, by rw [Nat.zero_mul, run_zero], .start hu hb⟩
  | succ k ih =>
    obtain ⟨t, hrun, ht⟩ := ih (by omega) fun i hi => hacks i (by omega)
    obtain ⟨u, hentry, hu⟩ := ht.acknowledgedEntry hwf hk fun i hi => hacks (3 * k + i) (by omega)
    exact ⟨u, by rw [Nat.succ_mul, run_add hrun, hentry], hu⟩

/-! ### The results of a CONFIGURE -/

/-- Settles O43: after the last entry FETCH finds the end of the table. -/
theorem acknowledgedConfigureSucceeds : Obligations.AcknowledgedConfigureSucceeds := by
  intro s hu hb hpins hwf hacks
  obtain ⟨t, hrun, ht⟩ := exists_run_configures hu hb hwf le_rfl hacks
  have hend : t.cfg.idx.toNat = t.params.tableLen := by rw [ht.idx_toNat hwf le_rfl, ht.params]
  have hstep := step_fetch_end ht.undisturbed ht.writer ht.state hend
  have hidle : t.fce.state = .idle := (congrArg FceRegs.state ht.fce).trans (busy_eq_false.mp hb).1
  exact ⟨_, run_succ_of_run hrun hstep, busy_eq_false.mpr ⟨hidle, rfl, ht.writer⟩, rfl, ht.cfgErr, ht.pins (.inl hpins),
    fun i => (ht.draws i).trans (congrArg _ (Nat.add_comm ..)), ht.fb, ht.fce⟩

/-- R123, R259: a failed write of entry `k` ends the CONFIGURE with `BusFailure(k)`. -/
theorem State.Configures.fails (ht : s.Configures .fetch k d t) (hb : s.busy = false) (hwf : s.params.wf)
    (hk : k < s.params.tableLen) (hrun : run m s.startConfigure = .next t)
    (hwrites : ∀ p, s.Configures .write k d p → p.Writes j n false) : s.configureFails k (m + (n + 2)) (d + (j + 1)) := by
  obtain ⟨u, hwrite, hu, hfail⟩ := ht.write hwf hk hwrites
  have hjudge := step_write hu.undisturbed hu.writer hu.state
  rw [State.judgeWrite_of_failed (s := u.nextMoves) hfail] at hjudge
  have hidle : u.fce.state = .idle := (congrArg FceRegs.state hu.fce).trans (busy_eq_false.mp hb).1
  exact ⟨_, (run_add hrun).trans (run_succ_of_run hwrite hjudge), busy_eq_false.mpr ⟨hidle, rfl, hu.writer⟩,
    congrArg some hu.idx, hu.cfgOk, hu.pins (.inr (Nat.succ_pos _)),
    fun i => (hu.draws i).trans (congrArg _ (Nat.add_comm ..)), hu.fb, hu.fce⟩

/-- Settles O44: each case is one of the failing writes, begun at entry `k` after `3 * k` draws. -/
theorem configureStopsAtTheFirstFailure : Obligations.ConfigureStopsAtTheFirstFailure := by
  intro s k hu hb hwf hk hacks
  obtain ⟨t, hrun, ht⟩ := exists_run_configures hu hb hwf hk.le hacks
  refine ⟨fun habort hnack => ?_, fun habort h0 => ?_, fun habort h0 h1 => ?_, fun habort h0 h1 h2 => ?_⟩
  · refine ht.fails hb hwf hk hrun (j := 2) (n := 89) fun p hp => ?_
    have hfail : (!p.env.sdaAt 0 && !p.env.sdaAt 1 && !p.env.sdaAt 2) = false := by
      rw [hp.draws, hp.draws, hp.draws]
      obtain h | h | h := hnack <;> simp [h]
    exact hfail ▸ State.writes_of_no_abort (hp.params ▸ habort)
  · exact ht.fails hb hwf hk hrun (j := 0) (n := 33) fun p hp =>
      State.writes_of_first_nack (hp.params ▸ habort) ((hp.draws 0).trans h0)
  · exact ht.fails hb hwf hk hrun (j := 1) (n := 61) fun p hp =>
      State.writes_of_second_nack (hp.params ▸ habort) ((hp.draws 0).trans h0) ((hp.draws 1).trans h1)
  · refine ht.fails hb hwf hk hrun (j := 2) (n := 89) fun p hp => ?_
    have hfail : (!p.env.sdaAt 2) = false := by rw [hp.draws, h2]; rfl
    exact hfail ▸ State.writes_of_acks ((hp.draws 0).trans h0) ((hp.draws 1).trans h1)

end Sys2Proof.Machine
end

section
/-! PROOFS of the statements about 42_control_bus_writer.md: the levels that every step keeps on the bus, the waveforms of START,
TXBYTE and STOP, and the writer's operations step by step, in their places and out of them. The waveforms are what the writer
`Emits`; a step in its place is the one that the sequencer issues. -/

namespace Sys2Proof.Machine

variable {s t u : State} {i : Instr} {b : Byte} {ws : List WireStep} {pins : Bool × Bool} {k m n r : Nat}

/-! ### The levels of the bus -/

/-- R144 to R150: each move of a step keeps the levels; the host writes to an IDLE writer, and a reset raises both lines. -/
theorem StepMove.pinsInv (h : StepMove s t) (hp : s.cbw.pinsInv) : t.cbw.pinsInv := by
  cases h with
  | unit h => exact h.pinsInv hp
  | host hb h => exact HostMove.pinsInv (s := s.nextMoves) (busy_eq_false.mp hb).2.2 h hp
  | reset => exact ⟨rfl, rfl⟩

/-- R157: while the writer is IDLE, so is the bus. -/
theorem CbwRegs.pinsInv.idle {c : CbwRegs} (hp : c.pinsInv) (h : c.state = .idle) : c.scl = true ∧ c.sdaM = true := by
  simpa only [CbwRegs.pinsInv, h] using hp

/-- Settles O54: every step without an issued word is one of the moves, and each keeps the levels. -/
theorem everyStepKeepsTheBusInvariant : Obligations.EveryStepKeepsTheBusInvariant := fun _ _ hi hp hs =>
  have hp' := (step_next hi hs).pinsInv hp
  ⟨hp', hp'.idle⟩

/-- Settles O28: of the steps that write SDA_M, B1, A1 and P1 have SCL at 0. -/
theorem dataLineChangesOnlyAtStartAndStopWhileClockHigh :
    Obligations.DataLineChangesOnlyAtStartAndStopWhileClockHigh := by
  intro s t hu hp hs hn hscl
  obtain h | h | h | h | h := (pinsAreWrittenOnlyByTheirSteps s t hu hs).2 hn
  case inl => exact .inl h
  case inr.inr.inr.inr => exact .inr h
  all_goals simp [CbwRegs.pinsInv, h, hscl] at hp

/-! ### The waveforms of START and STOP -/

/-- The pins after the step at place `n` of what the writer emits. -/
theorem Emits.exists_run_pins (h : Emits s ws u) (hu : s.undisturbed) (hn : ws[n]? = some (i, pins)) :
    ∃ t, run (n + 1) s = .next t ∧ t.cbw.scl = pins.1 ∧ t.cbw.sdaM = pins.2 := by
  obtain ⟨-, t, -, -, hrun, rfl⟩ := h.getElem?_run (.refl hu) hn
  exact ⟨t, hrun, rfl, rfl⟩

/-- R151: SDA falls with SCL as it is, then SCL falls. -/
theorem Emits.start (h : s.cbw.state = .s1) :
    Emits s [(.start, s.cbw.scl, false), (.start, false, false)] s.stepS1.stepS2 :=
  .cons (by simp [CbwRegs.issues, h]) (.s1 h) rfl (.cons rfl (.s2 rfl) rfl .nil)

/-- R153: with SCL at 0 SDA falls, then SCL rises, then SDA. -/
theorem Emits.stop (h : s.cbw.state = .p1) (hscl : s.cbw.scl = false) :
    Emits s [(.stop, false, false), (.stop, true, false), (.stop, true, true)] s.stepP1.stepP2.stepP3 :=
  .cons (by simp [CbwRegs.issues, h]) (.p1 h) (Prod.ext hscl rfl) (.cons rfl (.p2 rfl) rfl (.cons rfl (.p3 rfl) rfl .nil))

/-- Settles O24: START and STOP emit their pins, and the runs end where their last steps lead. -/
theorem startAndStopWaveforms : Obligations.StartAndStopWaveforms := by
  refine fun s hu => ⟨fun h hscl _ => ?_, fun h hscl _ => ?_⟩
  · have hstart := Emits.start h
    rw [hscl] at hstart
    obtain ⟨_, hrun, -, _, _, _, rfl⟩ := hstart.exists_run (.refl hu)
    exact ⟨hstart.exists_run_pins (n := 0) hu rfl, _, hrun, rfl, rfl, rfl, rfl, rfl⟩
  · have hstop := Emits.stop h hscl
    obtain ⟨_, hrun, -, _, _, _, rfl⟩ := hstop.exists_run (.refl hu)
    exact ⟨hstop.exists_run_pins (n := 0) hu rfl, hstop.exists_run_pins (n := 1) hu rfl, _, hrun, rfl, rfl, rfl, rfl⟩

/-! ### The waveform of TXBYTE -/

theorem bitsWire_length (b : Byte) (m : Nat) : (bitsWire b m).length = 3 * (m + 1) := by
  induction m with
  | zero => rfl
  | succ m ih => rw [bitsWire, List.length_append, ih]; exact Nat.add_comm ..

/-- R152: the three steps of the bit at place `k` from bit `m` down, with SCL at 1 in the middle one. -/
theorem bitsWire_getElem? (hk : k ≤ m) (hr : r < 3) :
    (bitsWire b m)[3 * k + r]? = some (.txbyte b, decide (r = 1), b.getLsbD (m - k)) := by
  have hbit (j : Nat) : (bitWire b j)[r]? = some (.txbyte b, decide (r = 1), b.getLsbD j) := by
    interval_cases r <;> rfl
  induction m generalizing k with
  | zero =>
    obtain rfl := Nat.le_zero.mp hk
    rw [Nat.mul_zero, Nat.zero_add]
    exact hbit 0
  | succ m ih =>
    cases k with
    | zero =>
      rw [Nat.mul_zero, Nat.zero_add, bitsWire, List.getElem?_append_left hr]
      exact hbit (m + 1)
    | succ k =>
      have hplace : 3 * (k + 1) + r = 3 * k + r + 3 := by omega
      rw [hplace, Nat.succ_sub_succ, ← ih (Nat.le_of_succ_le_succ hk)]
      rfl

/-- R152: a byte begins with its eight bits. -/
theorem byteWire_bit (hk : k < 8) (hr : r < 3) :
    (byteWire b)[3 * k + r]? = some (.txbyte b, decide (r = 1), b.getLsbD (7 - k)) := by
  rw [byteWire_eq, List.getElem?_append_left (by rw [bitsWire_length]; omega)]
  exact bitsWire_getElem? (by omega) hr

/-- R152: a byte ends with its acknowledge, SDA released and SCL at 1 in the two middle steps. -/
theorem byteWire_acknowledge (hr : r < 4) :
    (byteWire b)[24 + r]? = some (.txbyte b, decide (r = 1 ∨ r = 2), true) := by
  rw [byteWire_eq, List.getElem?_append_right (Nat.le_add_right 24 r), bitsWire_length, Nat.add_sub_cancel_left]
  interval_cases r <;> rfl

/-- R148, R149: after its byte the writer goes to the next one or to STOP, with the draw of the acknowledge taken and kept. -/
theorem State.acknowledged_stepA4 (s : State) :
    (s.acknowledged.stepA4.cbw.state = .b1 ∨ s.acknowledged.stepA4.cbw.state = .p1) ∧
    (s.acknowledged.stepA4.cbw.ack = true ↔ s.env.sdaAt 0 = false) ∧
    (s.acknowledged.stepA4.cbw.ok = true ↔ s.cbw.ok = true ∧ s.env.sdaAt 0 = false) ∧
    ∀ k, s.acknowledged.stepA4.env.sdaAt k = s.env.sdaAt (k + 1) := by
  obtain ⟨-, e⟩ | ⟨-, e⟩ := s.acknowledged.stepA4_cases <;> rw [e] <;> simp [State.acknowledged]

/-- Settles O25: the byte emits its eight bits and its acknowledge, whose draw is the only one taken. -/
theorem txbyteWaveform : Obligations.TxbyteWaveform := by
  intro s hu hst hbit hscl
  have hbyte := Emits.byte hst hscl hbit
  refine ⟨fun k r hk hr => ?_, fun r hr => ?_, ?_⟩
  · obtain ⟨t, hrun, hclk, hdata⟩ := hbyte.exists_run_pins hu (byteWire_bit hk hr)
    exact ⟨t, hrun, hdata, by simp [hclk]⟩
  · obtain ⟨t, hrun, hclk, hdata⟩ := hbyte.exists_run_pins hu (byteWire_acknowledge hr)
    exact ⟨t, hrun, hdata, by simp [hclk]⟩
  · obtain ⟨_, hrun, -, _, _, _, rfl⟩ := hbyte.exists_run (.refl hu)
    exact ⟨_, hrun, s.acknowledged_stepA4⟩

/-! ### The operations in their places -/

/-- Settles O17: with BUSY = 0 it is `startWrite`. -/
theorem writeRegisterStarts : Obligations.WriteRegisterStarts := fun _ _ _ hb => if_neg (Bool.eq_false_iff.mp hb)

/-- R151: in S2 START takes its second step. -/
theorem execStart_of_s2 (h : s.cbw.state = .s2) : exec .start s = .next s.stepS2 := congrArg _ (if_pos h)

/-- R151, assumption 7: elsewhere START takes its first step. -/
theorem execStart_of_ne_s2 (h : s.cbw.state ≠ .s2) : exec .start s = .next s.stepS1 := congrArg _ (if_neg h)

/-- Settles O18: the step of S2 loads byte 0, the device address. -/
theorem startSteps : Obligations.StartSteps := fun _ => ⟨fun h => execStart_of_ne_s2 (by simp [h]), execStart_of_s2⟩

/-- R30: inside a TXBYTE the writer issues it for `sh`. -/
theorem CbwRegs.issues_of_inTxbyte {c : CbwRegs} (h : c.state.inTxbyte = true) : c.issues = some (.txbyte c.sh) := by
  unfold CbwRegs.issues
  cases hst : c.state with
  | b1 | b2 | b3 | a1 | a2 | a3 | a4 => rfl
  | idle | s1 | s2 | p1 | p2 | p3 => simp [hst, CbwState.inTxbyte] at h

/-- R152: inside a TXBYTE the operation that sends `sh` is the writer's own step. -/
theorem execTxbyte_inPlace (h : s.cbw.state.inTxbyte = true) : exec (.txbyte s.cbw.sh) s = s.unitStep :=
  (unitStep_of_cbw_issues (CbwRegs.issues_of_inTxbyte h)).symm

/-- Settles O19: in each state TXBYTE is the writer's step. -/
theorem txbyteDataSteps : Obligations.TxbyteDataSteps := by
  refine fun s => ⟨fun h => ?_, fun h => ?_, fun h hmore => ?_, fun h hlast => ?_⟩ <;>
    rw [execTxbyte_inPlace (by rw [h]; rfl)]
  · exact unitStep_b1 h
  · exact unitStep_b2 h
  · have hne : s.cbw.bitcnt ≠ 0 := fun h0 => by simp [h0] at hmore
    rw [unitStep_b3 h, State.stepB3, if_neg hne]
  · rw [unitStep_b3 h, State.stepB3, if_pos hlast]

/-- R149: when A4 goes to the stop condition. -/
theorem State.lastByte_iff : s.lastByte = true ↔ s.cbw.bytesel = 2 ∨ (s.params.abortOnNack = true ∧ s.cbw.ok = false) := by
  simp [State.lastByte]

/-- R149: A4 goes on to the byte after `bytesel`. -/
theorem State.stepA4_of_more (hsel : s.cbw.bytesel ≠ 2) (hgo : ¬(s.params.abortOnNack = true ∧ s.cbw.ok = false)) :
    s.stepA4 = { s with cbw := { s.cbw with
      scl := false, bytesel := s.cbw.bytesel + 1, sh := s.busByte (s.cbw.bytesel + 1), bitcnt := 7, state := .b1 } } :=
  if_neg fun h => (State.lastByte_iff.mp h).elim hsel hgo

/-- Settles O20: in each state TXBYTE is the writer's step; A3 reads the line. -/
theorem txbyteAcknowledgeSteps : Obligations.TxbyteAcknowledgeSteps := by
  refine fun s => ⟨fun h => ?_, fun h => ?_, fun h => ?_, fun h hlast => ?_, fun h hgo hsel => ?_, fun h hgo hsel => ?_⟩ <;>
    rw [execTxbyte_inPlace (by rw [h]; rfl)]
  · exact unitStep_a1 h
  · exact unitStep_a2 h
  · have hline : decide ((s.cbw.sdaM && s.env.sdaAt 0) = false) = !s.sdaIn := Bool.decide_eq_false
    rw [hline]
    exact ⟨_, unitStep_a3 h, rfl, s.env.sdaAt_nextDraw, s.env.snapshotAt_nextDraw, rfl, rfl, rfl⟩
  · rw [unitStep_a4 h, State.stepA4, if_pos (State.lastByte_iff.mpr hlast)]
  · rw [unitStep_a4 h, State.stepA4_of_more (by simp [hsel]) hgo, hsel]
    rfl
  · rw [unitStep_a4 h, State.stepA4_of_more (by simp [hsel]) hgo, hsel]
    rfl

/-- R153, assumption 7: but in P2 and P3 STOP takes its first step. -/
theorem execStop_of_ne (h2 : s.cbw.state ≠ .p2) (h3 : s.cbw.state ≠ .p3) : exec .stop s = .next s.stepP1 := by
  have hstop : s.stopStep = s.stepP1 := by
    unfold State.stopStep
    split
    · exact absurd ‹_› h2
    · exact absurd ‹_› h3
    all_goals rfl
  exact congrArg Host.Outcome.next hstop

/-- R30, R153: STOP is the writer's step where the sequencer issues it. -/
theorem execStop_inPlace (h : s.cbw.issues = some .stop) : exec .stop s = s.unitStep := (unitStep_of_cbw_issues h).symm

/-- Settles O21: in each state STOP is the writer's step. -/
theorem stopSteps : Obligations.StopSteps := by
  refine fun s => ⟨fun h => ?_, fun h => ?_, fun h => ?_⟩ <;> rw [execStop_inPlace (by simp [CbwRegs.issues, h])]
  · exact unitStep_p1 h
  · exact unitStep_p2 h
  · exact ⟨_, unitStep_p3 h, rfl⟩

/-! ### The operations out of their places -/

/-- Assumption 7: a TXBYTE whose byte is not being sent begins with it. -/
theorem State.enterTxbyte_outOfPlace (h : s.cbw.state.inTxbyte = false ∨ s.cbw.sh ≠ b) :
    s.enterTxbyte b = { s with cbw := { s.cbw with sh := b, bitcnt := 7, state := .b1 } } := by
  refine if_neg fun hin => ?_
  obtain ⟨hst, hsh⟩ := Bool.and_eq_true_iff.mp hin
  obtain h | h := h
  · simp [h] at hst
  · exact h (of_decide_eq_true hsh)

/-- Assumption 7: a DELAY outside a settle delay begins one. -/
theorem State.enterDelay_outOfPlace (h : s.cfg.state ≠ .settle) :
    s.enterDelay = { s with cfg := { s.cfg with settleCnt := s.params.settleTicks, state := .settle } } := if_neg h

/-- Settles O23: each operation enters at its first step. -/
theorem outOfPlaceOperationsBeginAtTheFirstStep : Obligations.OutOfPlaceOperationsBeginAtTheFirstStep := by
  refine fun s => ⟨execStart_of_ne_s2, fun b h => ?_, execStop_of_ne, fun h hmore => ?_, fun h hone => ?_,
    fun pin level hpin => ?_⟩
  · exact congrArg (fun u : State => Host.Outcome.next u.txbyteStep) (State.enterTxbyte_outOfPlace h)
  · rw [exec, execDelay, State.enterDelay_outOfPlace h]
    exact congrArg _ (State.delayStep_of_more hmore)
  · rw [exec, execDelay, State.enterDelay_outOfPlace h]
    exact congrArg _ (State.delayStep_of_one hone)
  · have hsnap : s.snapshot.pin pin = level := hpin
    rw [exec, execWaitw, hsnap, FceRegs.poll_same]

end Sys2Proof.Machine
end

section
/-! PROOFS of the statements about 43_frame_capture_engine.md: the engine's operations one by one, a wait of any length, and two
captures side by side. `State.Waited` says what a wait leaves unchanged. Two captures at the same cursor that see the same
levels make the same moves, a `LockStep`; what they have stored then depends on the snapshots alone. -/

namespace Sys2Proof.Machine

variable {s s' t u u' : State} {f f' : FceRegs} {pin : Pin} {level : Bool} {k n : Nat}

/-! ### Accepting and ending a capture -/

/-- Settles O14: with BUSY = 0 it is `startCapture`. -/
theorem captureStarts : Obligations.CaptureStarts := fun _ hb => if_neg (Bool.eq_false_iff.mp hb)

/-- Settles O36: it is `maskInterrupts`. -/
theorem irqMaskSavesAndMasks : Obligations.IrqMaskSavesAndMasks := fun _ => rfl

/-- Settles O37: it is `restoreInterrupts`. -/
theorem irqRestoreRestores : Obligations.IrqRestoreRestores := fun _ => rfl

/-- R35: no reset comes, and neither the writer nor the configurator runs, so that a step is the engine's. -/
structure State.EngineAlone (s : State) : Prop where
  undisturbed : s.undisturbed
  writer : s.cbw.state = .idle
  configurator : s.cfg.state = .idle

theorem State.EngineAlone.nextMoves (hs : s.EngineAlone) : s.nextMoves.EngineAlone :=
  ⟨undisturbed_nextMoves hs.undisturbed, hs.writer, hs.configurator⟩

/-- What the units other than the engine hold, and what is to come from the host, say whether the engine is alone. -/
theorem State.EngineAlone.congr (hs : s.EngineAlone) (hw : t.cbw = s.cbw) (hc : t.cfg = s.cfg)
    (hh : t.env.host = s.env.host) (hi : t.env.issue = s.env.issue) : t.EngineAlone := by
  obtain ⟨⟨hissue, hhost⟩, hwriter, hconfigurator⟩ := hs
  exact ⟨⟨hi.trans hissue, hh ▸ hhost⟩, hw ▸ hwriter, hc ▸ hconfigurator⟩

/-- While the engine runs a step is its own. -/
theorem State.EngineAlone.step_eq (hs : s.EngineAlone) (hf : s.fce.state ≠ .idle) : step s = s.nextMoves.unitStep :=
  step_of_busy hs.undisturbed (busy_eq_true.mpr (.inl hf))

/-- R182: in a wait a step is one poll. -/
theorem State.EngineAlone.step_wait (hs : s.EngineAlone) (hf : s.fce.state = waitState pin level) :
    step s = .next (s.nextMoves.polled pin level) :=
  (hs.step_eq (hf ▸ waitState_ne_idle pin level)).trans (unitStep_wait (s := s.nextMoves) hs.writer hs.configurator hf)

/-- R187, R61: in SAMPLE a step stores the byte, when its address exists. -/
theorem State.EngineAlone.step_sample (hs : s.EngineAlone) (hf : s.fce.state = .sample)
    (hb : s.fce.byteIndex.toNat < fbLen) : step s = .next s.nextMoves.storeSample :=
  (hs.step_eq (by simp [hf])).trans
    ((unitStep_sample (s := s.nextMoves) hs.writer hs.configurator hf).trans (if_pos hb))

/-- R190: in COMPLETE a step ends the capture. -/
theorem State.EngineAlone.step_complete (hs : s.EngineAlone) (hf : s.fce.state = .complete) :
    step s = .next s.nextMoves.completeCapture :=
  (hs.step_eq (by simp [hf])).trans (unitStep_complete (s := s.nextMoves) hs.writer hs.configurator hf)

/-- Settles O38: the step is `completeCapture` after the moves of the environment. -/
theorem completeEndsTheCapture : Obligations.CompleteEndsTheCapture := fun _ hu hw hc hf =>
  ⟨_, State.EngineAlone.step_complete ⟨hu, hw, hc⟩ hf, busy_eq_false.mpr ⟨rfl, hc, hw⟩, rfl⟩

/-! ### One poll -/

/-- R182: a poll that reads the level consumes its tick only. -/
theorem State.polled_of_level (hf : s.fce.state = waitState pin level) (h : (s.env.snapshotAt 0).pin pin = level) :
    s.polled pin level = s.nextTick := by
  have hsame : s.fce.poll pin level (s.snapshot.pin pin) = s.fce := by
    rw [State.snapshot, h, FceRegs.poll_same, ← hf]
  rw [State.polled, hsame]

/-- R182: a poll that reads the other level leaves the wait. -/
theorem State.polled_of_not_level (h : (s.env.snapshotAt 0).pin pin = !level) :
    s.polled pin level = { s with fce := s.fce.leaveWait pin level }.nextTick := by
  rw [State.polled, State.snapshot, h, FceRegs.poll_other]

theorem execWaitw_stay (hf : s.fce.state = waitState pin level) (h : (s.env.snapshotAt 0).pin pin = level) :
    exec (.waitw pin level) s = .next s.nextTick :=
  congrArg Host.Outcome.next (State.polled_of_level hf h)

theorem execWaitw_leave (h : (s.env.snapshotAt 0).pin pin = !level) (hl : s.fce.leaveWait pin level = f) :
    exec (.waitw pin level) s = .next { s with fce := f }.nextTick :=
  hl ▸ congrArg Host.Outcome.next (State.polled_of_not_level h)

/-- Settles O30: the state is `nextTick`. -/
theorem waitStaysWhileThePinReadsTheLevel : Obligations.WaitStaysWhileThePinReadsTheLevel := fun s _ _ hf h =>
  ⟨_, execWaitw_stay hf h, rfl, s.env.snapshotAt_nextTick, s.env.sdaAt_nextTick, rfl, rfl, rfl⟩

/-- Settles O31: each wait stays or is left. -/
theorem vsyncWaits : Obligations.VsyncWaits := fun _ =>
  ⟨fun hf h => execWaitw_stay hf h, fun h => execWaitw_leave h rfl,
    fun hf h => execWaitw_stay hf h, fun h => execWaitw_leave h rfl⟩

/-- Settles O32: each wait stays or is left; `pulse` says which pulse has ended. -/
theorem hsyncWaits : Obligations.HsyncWaits := fun _ =>
  ⟨fun hf h => execWaitw_stay hf h, fun h => execWaitw_leave h rfl, fun hf h => execWaitw_stay hf h,
    fun h hp => execWaitw_leave h (if_neg (Bool.eq_false_iff.mp hp)), fun h hp => execWaitw_leave h (if_pos hp)⟩

/-- Settles O33: each wait stays or is left; `edge` says whether the edge is sampled. -/
theorem pclkWaits : Obligations.PclkWaits := fun _ =>
  ⟨fun hf h => execWaitw_stay hf h, fun h => execWaitw_leave h rfl, fun hf h => execWaitw_stay hf h,
    fun h he => execWaitw_leave h (if_pos he), fun h he => execWaitw_leave h (if_neg (Nat.not_lt.mpr he))⟩

/-! ### SAMPLE and the cursor -/

/-- R96: D7 is bit 7 of the sampled byte. -/
theorem Snapshot.pix8_d7 (x : Snapshot) : x.pix8.getLsbD 7 = x.d7 :=
  BitVec.getLsbD_append.trans (by simp)

/-- R96: DPORT is bits 6:0 of the sampled byte. -/
theorem Snapshot.pix8_dport (x : Snapshot) : x.pix8.extractLsb' 0 7 = x.dport :=
  BitVec.extractLsb'_append_eq_right

/-- R187: SAMPLE's byte is at the byte counter. -/
theorem State.storeSample_readFrame_same (s : State) :
    s.storeSample.readFrame s.fce.byteIndex.toNat = (s.env.snapshotAt 0).pix8 :=
  s.readFrame_writeFrame_same _ _

/-- Settles O34: the state is `storeSample`, whose write is one byte of the frame buffer. -/
theorem sampleStoresTheByte : Obligations.SampleStoresTheByte := by
  intro s hb
  have hexec : exec .sample s = .next s.storeSample := if_pos hb
  refine ⟨_, hexec, rfl, ?_, ?_, fun _ => State.storeSample_readFrame_other, rfl, s.env.snapshotAt_nextTick,
    s.env.sdaAt_nextTick, rfl, rfl, rfl⟩
  · rw [State.storeSample_readFrame_same, Snapshot.pix8_d7]
  · rw [State.storeSample_readFrame_same, Snapshot.pix8_dport]

/-- R188: an edge before the last of its pixel. -/
theorem FceRegs.advance_of_edge_ne (he : f.edge ≠ 3) : f.advance = { f with edge := f.edge + 1, state := .pkWhileHigh } :=
  if_pos he

/-- R188: the last edge of a pixel before the last of its line. -/
theorem FceRegs.advance_of_column_lt (he : f.edge = 3) (hc : f.column.toNat + 1 < 160) :
    f.advance = { f with edge := 0, column := f.column + 1, state := .pkWhileHigh } :=
  (if_neg (not_not.mpr he)).trans (if_pos hc)

/-- R188: the last edge of a line before the last. -/
theorem FceRegs.advance_of_line_lt (he : f.edge = 3) (hc : 160 ≤ f.column.toNat + 1) (hl : f.line.toNat + 1 < 120) :
    f.advance = { f with edge := 0, column := f.column + 1, line := f.line + 1, state := .hsWhileLow } :=
  (if_neg (not_not.mpr he)).trans ((if_neg (Nat.not_lt.mpr hc)).trans (if_pos hl))

/-- R188: the last edge of the frame. -/
theorem FceRegs.advance_of_line_ge (he : f.edge = 3) (hc : 160 ≤ f.column.toNat + 1) (hl : 120 ≤ f.line.toNat + 1) :
    f.advance = { f with edge := 0, column := f.column + 1, line := f.line + 1, state := .complete } :=
  (if_neg (not_not.mpr he)).trans ((if_neg (Nat.not_lt.mpr hc)).trans (if_neg (Nat.not_lt.mpr hl)))

/-- Settles O35: at column 159 and line 119 the sums are 160 and 120. -/
theorem advanceMovesTheCursor : Obligations.AdvanceMovesTheCursor := by
  intro f _ _
  have hedge (he : f.edge.toNat = 3) : f.edge = 3 := BitVec.eq_of_toNat_eq he
  have hcolumn (hc : f.column.toNat = 159) : f.column = 159 := BitVec.eq_of_toNat_eq hc
  refine ⟨fun he => ?_, fun he hc => ?_, fun he hc hl => ?_, fun he hc hl => ?_⟩
  · exact FceRegs.advance_of_edge_ne fun h3 => by simp [h3] at he
  · exact FceRegs.advance_of_column_lt (hedge he) (by omega)
  · rw [FceRegs.advance_of_line_lt (hedge he) (by omega) (by omega), hcolumn hc]
    rfl
  · have hline : f.line = 119 := BitVec.eq_of_toNat_eq hl
    rw [FceRegs.advance_of_line_ge (hedge he) (by omega) (by omega), hcolumn hc, hline]
    rfl

/-! ### A wait of any length -/

/-- `t` is what `n` polls that read the level have made of `s`: only the ticks and the schedules have moved, and the mask as
the platform moved it. -/
structure State.Waited (s t : State) (n : Nat) : Prop where
  alone : t.EngineAlone
  fce : t.fce = s.fce
  fb : t.fb = s.fb
  flags : t.flags = s.flags
  mask : s.flags.irqMasked = true → t.irqMask = s.irqMask
  snapshots : ∀ k, t.env.snapshotAt k = s.env.snapshotAt (k + n)

theorem State.Waited.refl (hs : s.EngineAlone) : s.Waited s 0 := ⟨hs, rfl, rfl, rfl, fun _ => rfl, fun _ => rfl⟩

/-- R197, R257: the host and the platform do not disturb a wait. -/
theorem State.Waited.nextMoves (h : s.Waited t n) : s.Waited t.nextMoves n where
  alone := h.alone.nextMoves
  fce := h.fce
  fb := h.fb
  flags := h.flags
  mask hm := (t.platformMask_of_masked (h.flags ▸ hm)).trans (h.mask hm)
  snapshots := h.snapshots

/-- R16: one tick more. -/
theorem State.Waited.nextTick (h : s.Waited t n) : s.Waited t.nextTick (n + 1) where
  alone := h.alone.congr rfl rfl rfl rfl
  fce := h.fce
  fb := h.fb
  flags := h.flags
  mask := h.mask
  snapshots k := by rw [State.nextTick_env, Env.snapshotAt_nextTick, h.snapshots, Nat.add_right_comm, Nat.add_assoc]

/-- After `n` polls the next one reads tick `n`. -/
theorem State.Waited.pin_eq (h : s.Waited t n) : (t.env.snapshotAt 0).pin pin = (s.env.snapshotAt n).pin pin := by
  rw [h.snapshots, Nat.zero_add]

/-- R182: while the pin reads the level the wait goes on. -/
theorem run_wait (hs : s.EngineAlone) (hf : s.fce.state = waitState pin level)
    (h : ∀ k, k < n → (s.env.snapshotAt k).pin pin = level) : ∃ t, run n s = .next t ∧ s.Waited t n := by
  induction n with
  | zero => exact ⟨s, rfl, .refl hs⟩
  | succ n ih =>
    obtain ⟨t, hrun, ht⟩ := ih fun k hk => h k (Nat.lt_succ_of_lt hk)
    have hwait : t.fce.state = waitState pin level := ht.fce ▸ hf
    have hlevel : (t.env.snapshotAt 0).pin pin = level := ht.pin_eq.trans (h n (Nat.lt_succ_self n))
    have hstep := ht.alone.step_wait hwait
    rw [State.polled_of_level (s := t.nextMoves) hwait hlevel] at hstep
    exact ⟨_, run_succ_of_run hrun hstep, ht.nextMoves.nextTick⟩

/-- Settles O45: the polls of the wait keep it, and the poll at the other level leaves it. -/
theorem waitLastsUntilThePinChanges : Obligations.WaitLastsUntilThePinChanges := by
  intro s pin level n hu hw hc hf hlevel hother
  have hs : s.EngineAlone := ⟨hu, hw, hc⟩
  refine ⟨fun m hm => ?_, ?_⟩
  · obtain ⟨t, hrun, ht⟩ := run_wait hs hf fun k hk => hlevel k (hk.trans_le hm)
    exact ⟨t, hrun, ht.fce, ht.fb⟩
  · obtain ⟨t, hrun, ht⟩ := run_wait hs hf hlevel
    have hstep := ht.alone.step_wait (ht.fce ▸ hf)
    rw [State.polled_of_not_level (s := t.nextMoves) (ht.pin_eq.trans hother)] at hstep
    exact ⟨_, run_succ_of_run hrun hstep, congrArg (FceRegs.leaveWait · pin level) ht.fce, ht.fb,
      ht.nextMoves.nextTick.snapshots⟩

/-- Settles O46: the wait keeps the engine and the flags, and with IRQ_MASKED 1 the mask. -/
theorem stuckLineHangsTheCapture : Obligations.StuckLineHangsTheCapture := by
  intro s pin level n hu hw hc hcapture hf hlevel
  have hrunning : s.fce.state ≠ .idle := hf ▸ waitState_ne_idle pin level
  obtain ⟨hmasked, hmask, hdone⟩ := (State.captureInv_iff_of_running hrunning).mp hcapture
  obtain ⟨t, hrun, ht⟩ := run_wait ⟨hu, hw, hc⟩ hf hlevel
  have hkept : t.irqMask = s.irqMask := ht.mask hmasked
  refine ⟨t, hrun, busy_eq_true.mpr (.inl (ht.fce ▸ hrunning)), ht.fce, ht.flags, hkept, ht.fb, ?_, hkept.trans hmask, ?_⟩
  · rw [ht.flags, hmasked]
  · rw [ht.flags, hdone]

/-! ### Two captures in lockstep -/

/-- Two engines at the same cursor: their registers differ in the saved mask state only. -/
def FceRegs.SameCursor (f f' : FceRegs) : Prop := ∃ saved, f' = { f with irqSaved := saved }

theorem FceRegs.sameCursor_iff : f.SameCursor f' ↔ f' = { f with irqSaved := f'.irqSaved } :=
  ⟨fun ⟨_, h⟩ => by rw [h], fun h => ⟨_, h⟩⟩

/-- R188: `advance` does not read the saved mask state. -/
theorem FceRegs.advance_of_irqSaved (f : FceRegs) (saved : IrqState) :
    { f with irqSaved := saved }.advance = { f.advance with irqSaved := saved } := by
  unfold FceRegs.advance
  split_ifs <;> rfl

/-- R182 to R186: neither does leaving a wait. -/
theorem FceRegs.leaveWait_of_irqSaved (f : FceRegs) (saved : IrqState) (pin : Pin) (level : Bool) :
    { f with irqSaved := saved }.leaveWait pin level = { f.leaveWait pin level with irqSaved := saved } := by
  cases pin <;> cases level
  case hsync.true => simp only [FceRegs.leaveWait]; split_ifs <;> rfl
  case pclk.false => simp only [FceRegs.leaveWait, FceRegs.advance_of_irqSaved]; split_ifs <;> rfl
  all_goals rfl

theorem FceRegs.SameCursor.state (h : f.SameCursor f') : f'.state = f.state := by
  obtain ⟨_, rfl⟩ := h; rfl

theorem FceRegs.SameCursor.byteIndex (h : f.SameCursor f') : f'.byteIndex = f.byteIndex := by
  obtain ⟨_, rfl⟩ := h; rfl

/-- R182: polls that read the same level move two engines alike. -/
theorem FceRegs.SameCursor.poll (h : f.SameCursor f') (pin : Pin) (level x : Bool) :
    (f.poll pin level x).SameCursor (f'.poll pin level x) := by
  obtain ⟨saved, rfl⟩ := h
  refine ⟨saved, ?_⟩
  unfold FceRegs.poll
  split
  · rfl
  · exact f.leaveWait_of_irqSaved saved pin level

/-- R187: so does SAMPLE, whatever it stores. -/
theorem FceRegs.SameCursor.sample (h : f.SameCursor f') :
    { f with byteIndex := f.byteIndex + 1 }.advance.SameCursor { f' with byteIndex := f'.byteIndex + 1 }.advance := by
  obtain ⟨saved, rfl⟩ := h
  exact ⟨saved, { f with byteIndex := f.byteIndex + 1 }.advance_of_irqSaved saved⟩

/-- Two captures at the same cursor that see the same levels of VSYNC, HSYNC and PCLK. -/
structure Twins (s s' : State) : Prop where
  alone : s.EngineAlone
  alone' : s'.EngineAlone
  cursor : s.fce.SameCursor s'.fce
  pins : ∀ k pin, (s.env.snapshotAt k).pin pin = (s'.env.snapshotAt k).pin pin

/-- The same move of the engine in two captures, after the moves of the environment of each. -/
inductive LockStep (s s' : State) : State → State → Prop where
  | poll (pin : Pin) (level : Bool) : LockStep s s' (s.nextMoves.polled pin level) (s'.nextMoves.polled pin level)
  | sample (h : s.fce.state = .sample) : LockStep s s' s.nextMoves.storeSample s'.nextMoves.storeSample
  | complete (h : s.fce.state = .complete) : LockStep s s' s.nextMoves.completeCapture s'.nextMoves.completeCapture

/-- R189, R192: while the engine runs, its cursor says which move comes next. -/
theorem Twins.step (h : Twins s s') (hrun : s.fce.state ≠ .idle) (hs : step s = .next t) :
    ∃ t', Machine.step s' = .next t' ∧ LockStep s s' t t' := by
  have hm : UnitMove s.nextMoves t := unitStep_next (h.alone.step_eq hrun ▸ hs)
  obtain ⟨pin, level, hf, rfl⟩ | ⟨hf, hb, rfl⟩ | ⟨hf, rfl⟩ | ⟨hf, -⟩ :=
    hm.engine_cases h.alone.writer h.alone.configurator
  · exact ⟨_, h.alone'.step_wait (h.cursor.state.trans hf), .poll pin level⟩
  · exact ⟨_, h.alone'.step_sample (h.cursor.state.trans hf) (h.cursor.byteIndex ▸ hb), .sample hf⟩
  · exact ⟨_, h.alone'.step_complete (h.cursor.state.trans hf), .complete hf⟩
  · exact absurd hf hrun

/-- The host's and the platform's moves leave the two captures at the same cursor. -/
theorem Twins.nextMoves (h : Twins s s') : Twins s.nextMoves s'.nextMoves :=
  ⟨h.alone.nextMoves, h.alone'.nextMoves, h.cursor, h.pins⟩

/-- R16, R182, R187: a move that consumes the tick shifts the levels of both alike. -/
theorem Twins.of_tick (h : Twins s s') (ht : t.EngineAlone) (ht' : u.EngineAlone) (hcursor : t.fce.SameCursor u.fce)
    (henv : t.env = s.env.nextTick) (henv' : u.env = s'.env.nextTick) : Twins t u := by
  refine ⟨ht, ht', hcursor, fun k pin => ?_⟩
  rw [henv, henv', Env.snapshotAt_nextTick, Env.snapshotAt_nextTick]
  exact h.pins (k + 1) pin

theorem Twins.polled (h : Twins s s') (pin : Pin) (level : Bool) : Twins (s.polled pin level) (s'.polled pin level) := by
  have hread : s'.snapshot.pin pin = s.snapshot.pin pin := (h.pins 0 pin).symm
  have hcursor := h.cursor.poll pin level (s.snapshot.pin pin)
  refine h.of_tick (h.alone.congr rfl rfl rfl rfl) (h.alone'.congr rfl rfl rfl rfl) ?_ rfl rfl
  show (s.fce.poll pin level (s.snapshot.pin pin)).SameCursor (s'.fce.poll pin level (s'.snapshot.pin pin))
  rwa [hread]

theorem Twins.storeSample (h : Twins s s') : Twins s.storeSample s'.storeSample :=
  h.of_tick (h.alone.congr rfl rfl rfl rfl) (h.alone'.congr rfl rfl rfl rfl) h.cursor.sample rfl rfl

theorem Twins.completeCapture (h : Twins s s') : Twins s.completeCapture s'.completeCapture where
  alone := h.alone.congr rfl rfl rfl rfl
  alone' := h.alone'.congr rfl rfl rfl rfl
  cursor := by
    obtain ⟨saved, e⟩ := h.cursor
    exact ⟨saved, congrArg (fun f : FceRegs => { f with state := .idle }) e⟩
  pins := h.pins

/-- R192: the same move leads two captures to the same cursor. -/
theorem Twins.lockStep (h : Twins s s') (hl : LockStep s s' u u') : Twins u u' := by
  cases hl with
  | poll pin level => exact h.nextMoves.polled pin level
  | sample => exact h.nextMoves.storeSample
  | complete => exact h.nextMoves.completeCapture

/-- A relation that each step of a running capture keeps, the other block answering a step of its own, holds after every number
of steps up to completion. -/
theorem run_lockstep {R : State → State → Prop}
    (hR : ∀ s s' u, R s s' → s.fce.state ≠ .idle → step s = .next u → ∃ u', step s' = .next u' ∧ R u u')
    (h : R s s') (hrunning : ∀ m u, m < n → run m s = .next u → u.fce.state ≠ .idle) (hrun : run n s = .next t) :
    ∃ t', run n s' = .next t' ∧ R t t' := by
  induction n generalizing s s' with
  | zero => cases hrun; exact ⟨s', rfl, h⟩
  | succ n ih =>
    cases hs : step s with
    | next u =>
      obtain ⟨u', hs', hu⟩ := hR s s' u h (hrunning 0 s (Nat.succ_pos n) rfl) hs
      rw [run_succ_of_next hs']
      exact ih hu (fun m v hm hv => hrunning (m + 1) v (Nat.succ_lt_succ hm) ((run_succ_of_next hs).trans hv))
        ((run_succ_of_next hs).symm.trans hrun)
    | fault | refused => simp [run, hs] at hrun

/-- Settles O49: the captures are twins, and each step of the one is answered by the same move of the other. -/
theorem dataLinesNeverSteerTheEngine : Obligations.DataLinesNeverSteerTheEngine := by
  intro n s s' t hu hu' hw hc hw' hc' hcursor hpins hrunning hrun
  have htwins : Twins s s' := ⟨⟨hu, hw, hc⟩, ⟨hu', hw', hc'⟩, FceRegs.sameCursor_iff.mpr hcursor, hpins⟩
  obtain ⟨t', hrun', ht⟩ := run_lockstep (R := Twins) (fun s s' u h hr hs =>
    (h.step hr hs).imp fun _ ⟨hs', hl⟩ => ⟨hs', h.lockStep hl⟩) htwins hrunning hrun
  exact ⟨t', hrun', FceRegs.sameCursor_iff.mp ht.cursor⟩

/-! ### The bytes of two captures -/

/-- Two captures at the same cursor that see the same snapshots and hold the same bytes below the byte counter; when they are
over, in the whole frame buffer. -/
structure StoredTwins (s s' : State) : Prop where
  twins : Twins s s'
  snapshots : ∀ k, s.env.snapshotAt k = s'.env.snapshotAt k
  cursor : s.fce.cursorInv
  memory : s.memoryInv
  memory' : s'.memoryInv
  bytes : ∀ a, a < s.fce.byteIndex.toNat → Memory.read? s'.fb a = Memory.read? s.fb a
  finished : s.fce.state = .idle → s'.fb = s.fb

/-- A byte written over two memories that agree below its address leaves them agreeing up to it. -/
theorem Memory.read?_write_agree {fb fb' : Memory} {b : Byte}
    (h : ∀ a, a < k → Memory.read? fb' a = Memory.read? fb a) :
    ∀ a, a < k + 1 → Memory.read? (Memory.write fb' k b) a = Memory.read? (Memory.write fb k b) a := by
  intro a ha
  obtain hlt | rfl := Nat.lt_succ_iff_lt_or_eq.mp ha
  · rw [Memory.read?_write_other hlt.ne, Memory.read?_write_other hlt.ne, h a hlt]
  · rw [Memory.read?_write_same, Memory.read?_write_same]

/-- R60: two frame buffers that agree on every address of the frame are the same. -/
theorem frameBuffer_ext (hm : s.memoryInv) (hm' : s'.memoryInv)
    (h : ∀ a, a < fbLen → Memory.read? s'.fb a = Memory.read? s.fb a) : s'.fb = s.fb := by
  obtain ⟨hwf, hin, -⟩ := hm
  obtain ⟨hwf', hin', -⟩ := hm'
  refine Memory.ext_of_wf hwf' hwf fun a => ?_
  obtain hlt | hge := lt_or_ge a fbLen
  · exact h a hlt
  · rw [Memory.read?_none_of_within hin' hge, Memory.read?_none_of_within hin hge]

/-- R16: moves in lockstep shift the snapshots of both alike. -/
theorem LockStep.snapshots (hl : LockStep s s' u u') (h : ∀ k, s.env.snapshotAt k = s'.env.snapshotAt k) (k : Nat) :
    u.env.snapshotAt k = u'.env.snapshotAt k := by
  have htick : s.env.nextTick.snapshotAt k = s'.env.nextTick.snapshotAt k := by
    rw [Env.snapshotAt_nextTick, Env.snapshotAt_nextTick, h]
  cases hl with
  | poll | sample => exact htick
  | complete => exact h k

/-- R187, R193: only SAMPLE moves the byte counter, and it stores the same byte in both. -/
theorem StoredTwins.lockStep_bytes (h : StoredTwins s s') (hl : LockStep s s' u u') :
    ∀ a, a < u.fce.byteIndex.toNat → Memory.read? u'.fb a = Memory.read? u.fb a := by
  cases hl with
  | poll pin level =>
    have hkept : (s.nextMoves.polled pin level).fce.byteIndex = s.fce.byteIndex := (s.fce.poll_frame ..).1
    rw [hkept]
    exact h.bytes
  | sample hf =>
    have hb : s.fce.byteIndex.toNat < fbLen := FceRegs.byteIndex_lt_of_sample hf h.cursor
    have hfb : s.nextMoves.storeSample.fb = Memory.write s.fb s.fce.byteIndex.toNat (s.env.snapshotAt 0).pix8 := rfl
    have hfb' : s'.nextMoves.storeSample.fb = Memory.write s'.fb s.fce.byteIndex.toNat (s.env.snapshotAt 0).pix8 := by
      rw [h.snapshots, ← h.twins.cursor.byteIndex]; rfl
    rw [State.storeSample_byteIndex (s := s.nextMoves) hb, hfb, hfb']
    exact Memory.read?_write_agree h.bytes
  | complete => exact h.bytes

/-- R28, R190: a capture that completes has stored the whole frame. -/
theorem StoredTwins.lockStep_finished (h : StoredTwins s s') (hl : LockStep s s' u u') (hidle : u.fce.state = .idle) :
    u'.fb = u.fb := by
  cases hl with
  | poll => exact absurd hidle (s.fce.poll_frame ..).2.2
  | sample => exact absurd hidle (FceRegs.advance_ne_idle _)
  | complete hf =>
    have hcursor := h.cursor
    simp only [FceRegs.cursorInv, hf] at hcursor
    obtain ⟨-, -, hindex, -⟩ := hcursor
    have hall : s.fce.byteIndex.toNat = fbLen := congrArg BitVec.toNat hindex
    exact frameBuffer_ext h.memory h.memory' (hall ▸ h.bytes)

/-- R195: a step of the one is answered by the same move of the other, which keeps the bytes stored so far equal. -/
theorem StoredTwins.step (h : StoredTwins s s') (hrun : s.fce.state ≠ .idle) (hs : step s = .next u) :
    ∃ u', Machine.step s' = .next u' ∧ StoredTwins u u' := by
  obtain ⟨u', hs', hl⟩ := h.twins.step hrun hs
  exact ⟨u', hs', {
    twins := h.twins.lockStep hl
    snapshots := hl.snapshots h.snapshots
    cursor := everyStepKeepsTheCursorInvariant s u h.twins.alone.undisturbed.1 h.cursor hs
    memory := everyStepKeepsTheMemoryForm s u h.memory hs
    memory' := everyStepKeepsTheMemoryForm s' u' h.memory' hs'
    bytes := h.lockStep_bytes hl
    finished := h.lockStep_finished hl }⟩

/-- Settles O50: the captures store the same bytes step by step; a capture that runs is not over yet, so that its start asks
nothing of the bytes above the byte counter. -/
theorem storedBytesDependOnTheSnapshotsOnly : Obligations.StoredBytesDependOnTheSnapshotsOnly := by
  intro n s s' t hu hu' hw hc hw' hc' hinv hm hm' hrun0 hcursor hsnap hbytes hrunning hrun
  have htwins : Twins s s' := ⟨⟨hu, hw, hc⟩, ⟨hu', hw', hc'⟩, FceRegs.sameCursor_iff.mpr hcursor,
    fun k pin => congrArg (Snapshot.pin · pin) (hsnap k)⟩
  obtain ⟨t', hrun', ht⟩ := run_lockstep (R := StoredTwins) (fun _ _ _ h => h.step)
    ⟨htwins, hsnap, hinv, hm, hm', hbytes, fun hidle => absurd hidle hrun0⟩ hrunning hrun
  exact ⟨t', hrun', FceRegs.sameCursor_iff.mp ht.twins.cursor, ht.bytes, ht.finished⟩

end Sys2Proof.Machine
end

section
/-! PROOFS of the statement about 44_host_operations.md: the byte that GET_FRAME puts in RDATA, written or free, and its
refusal of an index that no byte has. That an accepted read is repeatable stands above, with `execGetFrame_of_idle`. -/

namespace Sys2Proof.Machine

variable {s : State} {index : BitVec 16} {a : Nat} {b : Byte}

/-! ### The byte at an address -/

/-- R60: an address that has been written holds its byte. -/
theorem State.readFrame_of_written (h : Memory.read? s.fb a = some b) : s.readFrame a = b := by
  rw [State.readFrame, h, Option.getD_some]

/-- R72: any other address holds its free byte (assumption 5). -/
theorem State.readFrame_of_unwritten (h : Memory.read? s.fb a = none) : s.readFrame a = Config.freeByte a := by
  rw [State.readFrame, h, Option.getD_none]

/-! ### GET_FRAME -/

/-- R101: the idle block refuses an index past the end of the frame buffer. -/
theorem execGetFrame_of_past_end (hb : s.busy = false) (hge : fbLen ≤ index.toNat) :
    execGetFrame index s = .refused .reservedOperand := by
  rw [execGetFrame, if_neg (Bool.eq_false_iff.mp hb), if_neg (Nat.not_lt.mpr hge)]

/-- Settles O15: index 38399 is the last below `fbLen`; the byte read is the written one or the free one. -/
theorem getFrameReadsOneByte : Obligations.GetFrameReadsOneByte := by
  intro s index hb
  constructor
  · intro hle
    have hlt : index.toNat < fbLen := Nat.lt_succ_of_le hle
    exact ⟨_, execGetFrame_of_idle hb hlt, rfl, fun _ => State.readFrame_of_written, State.readFrame_of_unwritten⟩
  · exact execGetFrame_of_past_end hb

end Sys2Proof.Machine
end

section
/-! PROOFS of the statement about 70_reset_and_hazards.md: the step of the reset event, the STATUS word it leaves, and the
platform's move, which comes after it and meets a block that no longer has IRQ_MASKED set. -/

namespace Sys2Proof.Machine

variable {s : State} {rest : List HostEvent}

/-- R280: whatever the block was doing, the step at which the host resets it is the reset, then the move of the platform. -/
theorem step_of_reset (hi : s.env.issue = none) (hh : s.env.host = .reset :: rest) :
    step s = .next s.applyReset.nextMoves := by
  simp [step, State.machineStep, hi, hh]

/-- R42, R280: STATUS is made of the sequencers' states, the flags and ERR_INDEX, and the reset clears them all. -/
theorem State.applyReset_status (s : State) : s.applyReset.status = 0 :=
  calc s.applyReset.status
    _ = State.reset.status := rfl
    _ = 0 := rfl

/-- R281, U21: the reset clears IRQ_MASKED, so that the platform's change of its mask lands even where a capture ran. -/
theorem State.applyReset_platformMask_of_set {m : IrqState} (hm : s.env.platform.head? = some (.setMask m)) :
    s.applyReset.platformMask = m :=
  s.applyReset.platformMask_of_set (congrArg Flags.irqMasked s.applyReset_flags) hm

/-- R281: with the platform at rest, its mask is the one from before the reset. -/
theorem State.applyReset_platformMask_of_leave (h : ∀ m, s.env.platform.head? ≠ some (.setMask m)) :
    s.applyReset.platformMask = s.irqMask :=
  s.applyReset.platformMask_of_leave h

/-- Settles O11: the registers and flags are those of `State.reset`, the frame buffer and the parameters those of `s`, and the
mask is what the platform's move makes of the one the reset kept. -/
theorem resetEventKeepsTheFrameBuffer : Obligations.ResetEventKeepsTheFrameBuffer := by
  intro s rest hi hh
  exact ⟨_, step_of_reset hi hh, rfl, rfl, rfl, rfl, rfl, s.applyReset_status, rfl, rfl, rfl, rfl,
    fun _ => State.applyReset_platformMask_of_set, State.applyReset_platformMask_of_leave⟩

end Sys2Proof.Machine
end
